-- ==== Sys2Proof/Word.lean ====
section
/-! DEFINITION. The word types of the engine (spec/00_scope.md R8: every quantity is an unsigned integer of 8, 16, 32 or 64
bits, or a byte sequence). -/

namespace Sys2Proof

/-- A byte: bit 7 the most significant, bit 0 the least (R8). -/
abbrev Byte := BitVec 8

/-- `u16` of R8. -/
abbrev U16 := BitVec 16

/-- `u32` of R8. -/
abbrev U32 := BitVec 32

/-- `u64` of R8. -/
abbrev U64 := BitVec 64

/-- The erased value of the NAND array (spec/00_scope.md R12, spec/20_memory.md R69). -/
def erased : Byte := 0xFF

end Sys2Proof
end

