-- ==== Sys2Proof/Config.lean ====
section
/-! DEFINITION. What an implementation fixes (spec/00_scope.md R6) and the free values the environment chooses. -/

namespace Sys2Proof

/-- One entry of `PROFILE_TABLE` (spec/41_chip_profile.md R170). -/
structure Profile where
  name : List Byte
  id : List Byte
  pageSize : Nat
  oobSize : Nat
  pagesPerBlock : Nat
  blockCount : Nat
deriving DecidableEq, Repr

/-- `U = PAGE_SIZE + OOB_SIZE`: one page with its spare area (spec/20_memory.md R61). -/
def Profile.unitSize (p : Profile) : Nat := p.pageSize + p.oobSize

/-- `NBLOCKS * PPB`: the rows of the array as the profile sees it (R61). -/
def Profile.rows (p : Profile) : Nat := p.blockCount * p.pagesPerBlock

/-- The fixture profile `TEST` of spec/41_chip_profile.md R175. -/
def Profile.test : Profile :=
  { name := [0x54, 0x45, 0x53, 0x54], id := [0x01, 0x02], pageSize := 8, oobSize := 2, pagesPerBlock := 2, blockCount := 4 }

/-- A setting of the three timing registers `T_WC`, `T_RC`, `T_REA` (spec/10_state.md R27: width and unit OPEN). -/
structure Timing where
  wc : Nat
  rc : Nat
  rea : Nat
deriving DecidableEq, Repr

/-- The parameter `CHECKSUM32` (spec/40_frame_codec.md R141) as plain data: the spec's choice, or another function of the
byte sequence, by number (notes/assumptions/5.md). -/
inductive ChecksumChoice where
  /-- The byte sum mod 2^32 of R141. -/
  | byteSum
  /-- The function `Config.otherChecksum n`. -/
  | other (n : Nat)
deriving DecidableEq, Repr

/-- The parameter `HASH` (spec/44_integrity.md R240) as plain data: the spec's choice, or another function of the byte
sequence, by number (notes/assumptions/5.md). -/
inductive HashChoice where
  /-- Multiply by 33, then XOR, of R241. -/
  | mulXor
  /-- The function `Config.otherHash n`. -/
  | other (n : Nat)
deriving DecidableEq, Repr

/-- The parameter "command codes" of R6: the `CMD` byte of each row of spec/30_encoding.md R93. -/
structure CommandCodes where
  status : Byte
  read : Byte
  write : Byte
  erase : Byte
  cancel : Byte
  pause : Byte
  resumeOp : Byte
  setResume : Byte
  powerCheck : Byte
  select : Byte
  redetect : Byte
  exit : Byte
  data : Byte
deriving DecidableEq, Repr

/-- The parameter "response codes" of R6: the `CMD` byte of each row of spec/30_encoding.md R94. -/
structure ResponseCodes where
  ack : Byte
  model : Byte
  progress : Byte
  complete : Byte
  failed : Byte
  power : Byte
  listStart : Byte
  listEntry : Byte
  listEnd : Byte
  data : Byte
deriving DecidableEq, Repr

/-- The parameters of spec/00_scope.md R6. A value is a field, so that a statement about every state holds for every
configuration. -/
structure Config where
  magic0 : Byte
  magic1 : Byte
  checksum : ChecksumChoice
  maxPayload : Nat
  commands : CommandCodes
  responses : ResponseCodes
  /-- `RX_FIFO_DEPTH`; `none` is the unbounded queue of R6. -/
  rxFifoDepth : Option Nat
  /-- `INACTIVITY_TIMEOUT`: OPEN, and no rule reads it (spec/60_exceptions.md R376 makes the timeout an untimed event). -/
  inactivityTimeout : Option Nat
  profileTable : List Profile
  idLen : Nat
  colCycles : Nat
  rowCycles : Nat
  opReadSetup : Byte
  opReadConfirm : Byte
  opProgSetup : Byte
  opProgConfirm : Byte
  opEraseSetup : Byte
  opEraseConfirm : Byte
  opReadStatus : Byte
  opReadId : Byte
  opReset : Byte
  timingSafe : Timing
  autotuneEn : Bool
  autotuneCandidates : List Timing
  /-- Whether the accelerated bus path can be initialised (spec/70_reset_and_hazards.md R401, `STRATEGY`). -/
  accelAvailable : Bool
  readyTimeoutRead : Nat
  readyTimeoutProg : Nat
  readyTimeoutErase : Nat
  readyTimeoutReset : Nat
  busRetryMax : Nat
  verifyRetryMax : Nat
  frameRetryMax : Nat
  powerFailCount : Nat
  powerThresholdMv : Nat
  maxRun : Nat
  hash : HashChoice
  hashInit : U32
deriving DecidableEq, Repr

/-- The command codes of spec/30_encoding.md R93. -/
def CommandCodes.default : CommandCodes :=
  { status := 0x01, read := 0x02, write := 0x03, erase := 0x04, cancel := 0x05, pause := 0x06, resumeOp := 0x07
    setResume := 0x08, powerCheck := 0x09, select := 0x0A, redetect := 0x0B, exit := 0x0C, data := 0x10 }

/-- The response codes of spec/30_encoding.md R94. -/
def ResponseCodes.default : ResponseCodes :=
  { ack := 0x80, model := 0x81, progress := 0x82, complete := 0x83, failed := 0x84, power := 0x85, listStart := 0x86
    listEntry := 0x87, listEnd := 0x88, data := 0x89 }

/-- The values of R6. Where R6 says OPEN the value is a DESIGN CHOICE (notes/assumptions/3.md): mostly the one the
vectors of spec/95_test_vectors.md use. -/
def Config.default : Config :=
  { magic0 := 0xA5, magic1 := 0x5A, checksum := .byteSum, maxPayload := 65536, commands := CommandCodes.default
    responses := ResponseCodes.default, rxFifoDepth := none, inactivityTimeout := none
    profileTable := [Profile.test], idLen := 5, colCycles := 2, rowCycles := 3
    opReadSetup := 0x00, opReadConfirm := 0x30, opProgSetup := 0x80, opProgConfirm := 0x10
    opEraseSetup := 0x60, opEraseConfirm := 0xD0, opReadStatus := 0x70, opReadId := 0x90, opReset := 0xFF
    timingSafe := ⟨0, 0, 0⟩, autotuneEn := false, autotuneCandidates := [], accelAvailable := true
    readyTimeoutRead := 4, readyTimeoutProg := 4, readyTimeoutErase := 4, readyTimeoutReset := 4
    busRetryMax := 3, verifyRetryMax := 3, frameRetryMax := 3, powerFailCount := 3, powerThresholdMv := 3000
    maxRun := 255, hash := .mulXor, hashInit := 0x00001505 }

/-- FREE VALUE: the `n`-th value the environment draws when the state holds no draw for it (spec/00_scope.md R10
`draw x in S`). Nothing evaluates it, so a statement holds whatever it is (notes/assumptions/1.md). -/
opaque Config.freeDraw : Nat → Nat

/-- FREE VALUE: what cell `a` of the NAND array holds before the engine has changed it (spec/20_memory.md R66: initial
content unspecified; notes/assumptions/6.md). -/
opaque Config.initialByte : Nat → Byte

/-- FREE VALUE: the cells, with their new bytes, that an access outside the die's contract changes
(spec/20_memory.md R66: it "returns and changes unspecified bytes"; notes/assumptions/7.md). -/
opaque Config.strayChange : Nat → List (Nat × Byte)

/-- FREE VALUE: the frame checksum a configuration takes in place of R141's. R141 asks only that it is a function of the byte
sequence (notes/assumptions/5.md). -/
opaque Config.otherChecksum : Nat → List Byte → U32

/-- FREE VALUE: the chunk hash a configuration takes in place of R241's: a total function of the bytes and their order
(spec/44_integrity.md R240; notes/assumptions/5.md). -/
opaque Config.otherHash : Nat → List Byte → U32

/-- FREE VALUE: what counting one more frame error gives when `FRAME_ERR_CNT`, a u8, already holds 255
(spec/60_exceptions.md R363 states no value; notes/assumptions/4.md). -/
opaque Config.frameCountOverflow : Nat → Nat

/-- FREE VALUE: what a checkpoint field holds after `clear` (spec/45_checkpoint.md R252: "the other fields become
unspecified"; notes/assumptions/9.md). -/
opaque Config.clearedField : Nat → Nat

end Sys2Proof
end

