-- ==== Sys2Proof/Syntax.lean ====
section
/-! DEFINITION. The instructions: one constructor for each of the 35 rows of spec/opcode_table.json (spec/30_encoding.md R93,
R94, R113, R118). -/

namespace Sys2Proof

/-- The operation request, payload of `READ`, `WRITE` and `ERASE` (spec/30_encoding.md R100). -/
structure Request where
  flags : Byte
  startBlock : U32
  startPage : U16
  count : U32
deriving DecidableEq, Repr

/-- One run token `[value, count]` (spec/30_encoding.md R114). -/
structure RunToken where
  value : Byte
  count : Byte
deriving DecidableEq, Repr

/-- The thirteen host commands of R93, by name. -/
inductive Cmd where
  | status | read | write | erase | cancel | pause | resumeOp | setResume | powerCheck | select | redetect | exit | data
deriving DecidableEq, Repr

/-- The instructions of the machine. The first thirteen are host commands (R93), the next ten the engine's own response
frames (R94), then the three stream units a data frame carries (R113), then the nine NAND bus opcodes (R118). -/
inductive Instr where
  | status
  | read (r : Request)
  | write (r : Request)
  | erase (r : Request)
  | cancel
  | pause
  | resumeOp
  | setResume (mode : Byte)
  | powerCheck
  | select (index : Byte)
  | redetect
  | exit
  | data (unit : List Byte)
  | rspAck (cmd info : Byte)
  | rspModel (index : Byte) (name : List Byte)
  | rspProgress (percent : Byte) (completed total : U32)
  | rspComplete (kind : Byte) (units : U32)
  | rspFailed (cause context : Byte)
  | rspPower (millivolts : U16) (low : Bool)
  | rspListStart (n : Byte)
  | rspListEntry (index : Byte) (name : List Byte)
  | rspListEnd
  | rspData (unit : List Byte)
  | unitRaw (body : List Byte)
  | unitRle (tokens : List RunToken)
  | unitBlank
  /-- Followed by the column and row address cycles (R196). -/
  | opReadSetup (addr : List Byte)
  /-- Followed by the ready wait and `n` data read cycles (R185). -/
  | opReadConfirm (n : U16)
  /-- Followed by the address cycles and the data write cycles (R197, R186). -/
  | opProgSetup (addr : List Byte) (bytes : List Byte)
  /-- Followed by the ready wait (R186). -/
  | opProgConfirm
  /-- Followed by the row address cycles (R187). -/
  | opEraseSetup (addr : List Byte)
  /-- Followed by the ready wait (R187). -/
  | opEraseConfirm
  /-- Followed by one data read cycle (R193). -/
  | opReadStatus
  /-- Followed by one address cycle `0x00` and `ID_LEN` data read cycles (R194). -/
  | opReadId
  /-- Followed by the ready wait (R191). -/
  | opReset
deriving DecidableEq, Repr

/-- The four places where encodings stand (spec/30_encoding.md, opening): host frame, engine frame, stream unit, NAND bus.
Codes of different spaces overlap; the space tells them apart. -/
inductive Space where
  | command | response | unit | bus
deriving DecidableEq, Repr

/-- The space an instruction is encoded in. -/
def Instr.space : Instr → Space
  | .status | .read _ | .write _ | .erase _ | .cancel | .pause | .resumeOp | .setResume _ | .powerCheck | .select _
  | .redetect | .exit | .data _ => .command
  | .rspAck _ _ | .rspModel _ _ | .rspProgress _ _ _ | .rspComplete _ _ | .rspFailed _ _ | .rspPower _ _
  | .rspListStart _ | .rspListEntry _ _ | .rspListEnd | .rspData _ => .response
  | .unitRaw _ | .unitRle _ | .unitBlank => .unit
  | .opReadSetup _ | .opReadConfirm _ | .opProgSetup _ _ | .opProgConfirm | .opEraseSetup _ | .opEraseConfirm
  | .opReadStatus | .opReadId | .opReset => .bus

end Sys2Proof
end

