-- ==== Sys2Proof/WellFormed.lean ====
section
/-! DEFINITION. Which configurations (spec/00_scope.md R7, spec/41_chip_profile.md R170) and which instruction terms are
well formed. -/

namespace Sys2Proof

/-- A profile name: 1 to 32 bytes, each in `0x20` to `0x7E` (spec/30_encoding.md R112). -/
def nameOk (name : List Byte) : Bool :=
  decide (1 ≤ name.length) && decide (name.length ≤ 32) &&
    name.all (fun b => decide (0x20 ≤ b.toNat) && decide (b.toNat ≤ 0x7E))

/-- The constraints of spec/00_scope.md R7 on one profile, with R170's on its name and identifier (1 to `ID_LEN` bytes). -/
def Profile.ok (c : Config) (p : Profile) : Bool :=
  nameOk p.name && decide (1 ≤ p.id.length) && decide (p.id.length ≤ c.idLen) &&
    decide (1 ≤ p.unitSize) && decide (p.unitSize ≤ 32767) && decide (1 ≤ p.pagesPerBlock) && decide (1 ≤ p.blockCount) &&
    decide (p.rows < 2 ^ (8 * c.rowCycles)) && decide (p.rows < 2 ^ 32) && decide (p.pagesPerBlock ≤ 65535) &&
    decide (1 + 2 * p.unitSize ≤ c.maxPayload)

/-- The constraints between parameters of spec/00_scope.md R7, and R170's on the table. R7 bounds `1 + 2*U` by `MAX_PAYLOAD` and
no other payload, so a legal small `MAX_PAYLOAD` leaves response payloads above it; the model emits those frames all the
same (DESIGN CHOICE, notes/assumptions/30.md). -/
def Config.ok (c : Config) : Bool :=
  decide (1 ≤ c.readyTimeoutRead) && decide (1 ≤ c.readyTimeoutProg) && decide (1 ≤ c.readyTimeoutErase) &&
    decide (1 ≤ c.readyTimeoutReset) && decide (1 ≤ c.powerFailCount) && decide (1 ≤ c.maxRun) && decide (c.maxRun ≤ 255) &&
    decide (c.profileTable.length ≤ 255) && c.profileTable.all (fun p => p.ok c)

/-- The command codes tell the host commands apart (R93). A configuration in which they do not is not refused: the first row
of R93 with the code is the one decoded (notes/assumptions/5.md). -/
def Config.commandsDistinct (c : Config) : Bool :=
  decide ([c.commands.status, c.commands.read, c.commands.write, c.commands.erase, c.commands.cancel, c.commands.pause,
    c.commands.resumeOp, c.commands.setResume, c.commands.powerCheck, c.commands.select, c.commands.redetect,
    c.commands.exit, c.commands.data].Nodup)

/-- The response codes tell the responses apart (R94). -/
def Config.responsesDistinct (c : Config) : Bool :=
  decide ([c.responses.ack, c.responses.model, c.responses.progress, c.responses.complete, c.responses.failed,
    c.responses.power, c.responses.listStart, c.responses.listEntry, c.responses.listEnd, c.responses.data].Nodup)

/-- The nine bus opcodes tell the bus operations apart (R118: nine configuration fields). -/
def Config.opcodesDistinct (c : Config) : Bool :=
  decide ([c.opReadSetup, c.opReadConfirm, c.opProgSetup, c.opProgConfirm, c.opEraseSetup, c.opEraseConfirm, c.opReadStatus,
    c.opReadId, c.opReset].Nodup)

/-- Each of the three code maps that are parameters tells its rows apart. -/
def Config.codesDistinct (c : Config) : Bool := c.commandsDistinct && c.responsesDistinct && c.opcodesDistinct

/-- An instruction term that has an encoding: a payload fits `MAX_PAYLOAD` (spec/30_encoding.md R96) and its 32-bit `LEN`
field (R90), a page or block address has its number of cycles (spec/20_memory.md R62), a run-length unit has a token
(R113) and no token of count 0 (R114). -/
def Instr.wf (c : Config) : Instr → Bool
  | .data unit | .rspData unit => decide (unit.length ≤ c.maxPayload) && decide (unit.length < 2 ^ 32)
  | .rspModel _ name | .rspListEntry _ name =>
    decide (1 + name.length ≤ c.maxPayload) && decide (1 + name.length < 2 ^ 32)
  | .unitRle tokens => decide (tokens ≠ []) && tokens.all (fun t => decide (t.count ≠ 0))
  | .opReadSetup addr | .opProgSetup addr _ => decide (addr.length = c.colCycles + c.rowCycles)
  | .opEraseSetup addr => decide (addr.length = c.rowCycles)
  | .read _ | .write _ | .erase _ => decide (11 ≤ c.maxPayload)
  | .setResume _ | .select _ | .rspListStart _ => decide (1 ≤ c.maxPayload)
  | .rspProgress _ _ _ => decide (9 ≤ c.maxPayload)
  | .rspComplete _ _ => decide (5 ≤ c.maxPayload)
  | .rspAck _ _ | .rspFailed _ _ => decide (2 ≤ c.maxPayload)
  | .rspPower _ _ => decide (3 ≤ c.maxPayload)
  | .status | .cancel | .pause | .resumeOp | .powerCheck | .redetect | .exit | .rspListEnd | .unitRaw _ | .unitBlank
  | .opReadConfirm _ | .opProgConfirm | .opEraseConfirm | .opReadStatus | .opReadId | .opReset => true

end Sys2Proof
end

