-- ==== Sys2Proof/Decode.lean ====
section
/-! DEFINITION. Byte order, the frame format, the code maps, the decoder (total, rejecting by name) and the encoder
(spec/30_encoding.md, spec/40_frame_codec.md R141, R142, spec/20_memory.md R62, R63). -/

namespace Sys2Proof

/-! ## Byte order and byte sequences (R9) -/

/-- The `n` low bytes of `v`, least significant first: `le16`, `le32` of spec/00_scope.md R9 and the address bytes of
spec/20_memory.md R62. -/
def leBytes : Nat → Nat → List Byte
  | 0, _ => []
  | n + 1, v => BitVec.ofNat 8 v :: leBytes n (v / 256)

/-- The number whose bytes, least significant first, are `l`: `un_le16`, `un_le32` of R9. -/
def unLe : List Byte → Nat
  | [] => 0
  | b :: r => b.toNat + 256 * unLe r

/-- `le16` of R9. -/
def le16 (v : U16) : List Byte := leBytes 2 v.toNat

/-- `le32` of R9. -/
def le32 (v : U32) : List Byte := leBytes 4 v.toNat

/-- `s[i .. j)` of R9. -/
def slice (s : List Byte) (i j : Nat) : List Byte := (s.drop i).take (j - i)

/-- `l` with zero bytes after it up to length `n`. -/
def padTo (n : Nat) (l : List Byte) : List Byte := l ++ List.replicate (n - l.length) 0

/-! ## The frame (R90, R91, R141, R142) -/

/-- The sum of the bytes as a natural number. -/
def byteSum : List Byte → Nat
  | [] => 0
  | b :: r => b.toNat + byteSum r

/-- `CHECKSUM32` (spec/40_frame_codec.md R141): the byte sum mod 2^32, or the function the configuration takes in its place. -/
def checksum32 (c : Config) (body : List Byte) : U32 :=
  match c.checksum with
  | .byteSum => BitVec.ofNat 32 (byteSum body)
  | .other n => Config.otherChecksum n body

/-- The checksummed part of a frame, `[CMD] ++ le32(LEN) ++ PAYLOAD` (R91). -/
def frameBody (cmd : Byte) (payload : List Byte) : List Byte := cmd :: (leBytes 4 payload.length ++ payload)

/-- `encode(cmd, payload)` (spec/40_frame_codec.md R142). -/
def encodeFrame (c : Config) (cmd : Byte) (payload : List Byte) : List Byte :=
  [c.magic0, c.magic1] ++ frameBody cmd payload ++ le32 (checksum32 c (frameBody cmd payload))

/-- Why bytes are no instruction. -/
inductive Reject where
  /-- No marker, or not as many bytes as `LEN` says (R90). -/
  | notAFrame
  /-- `LEN` above `MAX_PAYLOAD` (R96). -/
  | lengthBound
  /-- The checksum does not match (R147). -/
  | checksum
  /-- A `CMD` outside the table of R93 (R95). -/
  | unknownCommand (cmd : Byte)
  /-- A known `CMD` whose `LEN` is not its fixed length (R95). -/
  | badLength (cmd : Byte)
  /-- A `CMD` outside the table of R94. -/
  | unknownResponse (cmd : Byte)
  /-- A response payload of no legal layout (R104 to R111). -/
  | badResponse (cmd : Byte)
  /-- No stream unit (R115). -/
  | badUnit
  /-- No bus opcode (R118). -/
  | unknownOpcode
  /-- A bus opcode with the wrong number of operand bytes. -/
  | badOperands
deriving DecidableEq, Repr

/-- A whole frame, read at once: its `CMD` and payload (R90, R91, R147). The engine itself reads byte by byte
(Machine/FrameCodec.lean). -/
def decodeFrame (c : Config) (bytes : List Byte) : Except Reject (Byte × List Byte) :=
  match bytes with
  | m0 :: m1 :: cmd :: l0 :: l1 :: l2 :: l3 :: rest =>
    if m0 ≠ c.magic0 ∨ m1 ≠ c.magic1 then .error .notAFrame
    else if c.maxPayload < unLe [l0, l1, l2, l3] then .error .lengthBound
    else if rest.length ≠ unLe [l0, l1, l2, l3] + 4 then .error .notAFrame
    else if unLe (rest.drop (unLe [l0, l1, l2, l3])) ≠
        (checksum32 c (cmd :: l0 :: l1 :: l2 :: l3 :: rest.take (unLe [l0, l1, l2, l3]))).toNat then .error .checksum
    else .ok (cmd, rest.take (unLe [l0, l1, l2, l3]))
  | _ => .error .notAFrame

/-! ## Host commands (R93, R95, R100 to R103) -/

/-- The code of a command (R93). -/
def Cmd.code (k : Cmd) (c : Config) : Byte :=
  match k with
  | .status => c.commands.status
  | .read => c.commands.read
  | .write => c.commands.write
  | .erase => c.commands.erase
  | .cancel => c.commands.cancel
  | .pause => c.commands.pause
  | .resumeOp => c.commands.resumeOp
  | .setResume => c.commands.setResume
  | .powerCheck => c.commands.powerCheck
  | .select => c.commands.select
  | .redetect => c.commands.redetect
  | .exit => c.commands.exit
  | .data => c.commands.data

/-- The "payload length" column of R93; `none` for `DATA`, which has no fixed length (R95). -/
def Cmd.fixedLen : Cmd → Option Nat
  | .read | .write | .erase => some 11
  | .setResume | .select => some 1
  | .data => none
  | .status | .cancel | .pause | .resumeOp | .powerCheck | .redetect | .exit => some 0

/-- All host commands, in the order of R93. -/
def Cmd.all : List Cmd :=
  [.status, .read, .write, .erase, .cancel, .pause, .resumeOp, .setResume, .powerCheck, .select, .redetect, .exit, .data]

/-- The command a `CMD` byte names, if any (R93, R95). -/
def Cmd.ofByte (c : Config) (b : Byte) : Option Cmd := Cmd.all.find? (fun k => k.code c == b)

/-- The operation request in an 11-byte payload (R100). -/
def Request.ofBytes (p : List Byte) : Request :=
  { flags := p.getD 0 0
    startBlock := BitVec.ofNat 32 (unLe (slice p 1 5))
    startPage := BitVec.ofNat 16 (unLe (slice p 5 7))
    count := BitVec.ofNat 32 (unLe (slice p 7 11)) }

/-- The 11 bytes of an operation request (R100). -/
def Request.toBytes (r : Request) : List Byte := r.flags :: (le32 r.startBlock ++ le16 r.startPage ++ le32 r.count)

/-- The command a payload of the right length belongs to. -/
def Cmd.parse (k : Cmd) (p : List Byte) : Instr :=
  match k with
  | .status => .status
  | .read => .read (Request.ofBytes p)
  | .write => .write (Request.ofBytes p)
  | .erase => .erase (Request.ofBytes p)
  | .cancel => .cancel
  | .pause => .pause
  | .resumeOp => .resumeOp
  | .setResume => .setResume (p.getD 0 0)
  | .powerCheck => .powerCheck
  | .select => .select (p.getD 0 0)
  | .redetect => .redetect
  | .exit => .exit
  | .data => .data p

/-- What a checksum-valid frame is as a host command: the code check and the length check of spec/46_sequencer.md R274, in
that order. -/
def decodeCommand (c : Config) (cmd : Byte) (p : List Byte) : Except Reject Instr :=
  match Cmd.ofByte c cmd with
  | none => .error (.unknownCommand cmd)
  | some k =>
    match k.fixedLen with
    | none => .ok (k.parse p)
    | some n => if p.length = n then .ok (k.parse p) else .error (.badLength cmd)

/-! ## Responses (R94, R104 to R111) -/

/-- The response a frame of the engine is. -/
def decodeResponse (c : Config) (cmd : Byte) (p : List Byte) : Except Reject Instr :=
  if cmd = c.responses.ack then
    match p with
    | [k, i] => .ok (.rspAck k i)
    | _ => .error (.badResponse cmd)
  else if cmd = c.responses.model then
    match p with
    | i :: name => .ok (.rspModel i name)
    | _ => .error (.badResponse cmd)
  else if cmd = c.responses.progress then
    if p.length = 9 then
      .ok (.rspProgress (p.getD 0 0) (BitVec.ofNat 32 (unLe (slice p 1 5))) (BitVec.ofNat 32 (unLe (slice p 5 9))))
    else .error (.badResponse cmd)
  else if cmd = c.responses.complete then
    if p.length = 5 then .ok (.rspComplete (p.getD 0 0) (BitVec.ofNat 32 (unLe (slice p 1 5))))
    else .error (.badResponse cmd)
  else if cmd = c.responses.failed then
    match p with
    | [k, x] => .ok (.rspFailed k x)
    | _ => .error (.badResponse cmd)
  else if cmd = c.responses.power then
    match p with
    | [m0, m1, l] =>
      if l = 0x01 then .ok (.rspPower (BitVec.ofNat 16 (unLe [m0, m1])) true)
      else if l = 0x00 then .ok (.rspPower (BitVec.ofNat 16 (unLe [m0, m1])) false)
      else .error (.badResponse cmd)
    | _ => .error (.badResponse cmd)
  else if cmd = c.responses.listStart then
    match p with
    | [n] => .ok (.rspListStart n)
    | _ => .error (.badResponse cmd)
  else if cmd = c.responses.listEntry then
    match p with
    | i :: name => .ok (.rspListEntry i name)
    | _ => .error (.badResponse cmd)
  else if cmd = c.responses.listEnd then
    match p with
    | [] => .ok .rspListEnd
    | _ => .error (.badResponse cmd)
  else if cmd = c.responses.data then .ok (.rspData p)
  else .error (.unknownResponse cmd)

/-- The shortest payload of a response code. -/
def responseMinLen (c : Config) (cmd : Byte) : Nat :=
  if cmd = c.responses.ack then 2 else if cmd = c.responses.model then 1 else if cmd = c.responses.progress then 9
  else if cmd = c.responses.complete then 5 else if cmd = c.responses.failed then 2 else if cmd = c.responses.power then 3
  else if cmd = c.responses.listStart then 1 else if cmd = c.responses.listEntry then 1 else 0

/-! ## Stream units (R113, R114, R115) -/

/-- A body of run tokens; `none` for an odd number of bytes. -/
def tokensOfBytes : List Byte → Option (List RunToken)
  | [] => some []
  | [_] => none
  | v :: n :: r => (tokensOfBytes r).map (fun ts => ⟨v, n⟩ :: ts)

/-- Run tokens as bytes, value first (R114). -/
def bytesOfTokens : List RunToken → List Byte
  | [] => []
  | t :: r => t.value :: t.count :: bytesOfTokens r

/-- The stream unit a payload is, as far as `U` does not enter (R113, R115). -/
def decodeUnitForm (p : List Byte) : Except Reject Instr :=
  match p with
  | [] => .error .badUnit
  | tag :: body =>
    if tag = 0x00 then .ok (.unitRaw body)
    else if tag = 0x01 then
      match tokensOfBytes body with
      | some ts => if ts = [] ∨ ts.any (fun t => t.count == 0) then .error .badUnit else .ok (.unitRle ts)
      | none => .error .badUnit
    else if tag = 0x02 then
      match body with
      | [] => .ok .unitBlank
      | _ => .error .badUnit
    else .error .badUnit

/-! ## The NAND bus (R118, R62) -/

/-- How many operand bytes follow a bus opcode at least; of rows with equal opcodes the first in R118's order counts, as in
`decodeBus`. -/
def busOperandLen (c : Config) (op : Byte) : Nat :=
  if op = c.opReadSetup then c.colCycles + c.rowCycles
  else if op = c.opReadConfirm then 2
  else if op = c.opProgSetup then c.colCycles + c.rowCycles
  else if op = c.opProgConfirm then 0
  else if op = c.opEraseSetup then c.rowCycles
  else if op = c.opEraseConfirm then 0
  else if op = c.opReadStatus then 0
  else if op = c.opReadId then 1
  else 0

/-- A bus instruction: the opcode, then its address cycles, then its data write cycles. The number of data read cycles of
`OP_READ_CONFIRM` follows as a u16 (the model's own operand, notes/assumptions/25.md). DESIGN CHOICE (notes/assumptions/5.md):
neither R7 nor R118 says that the nine configured opcodes differ; of rows with equal opcodes the first in R118's order is
read. -/
def decodeBus (c : Config) (bytes : List Byte) : Except Reject Instr :=
  match bytes with
  | [] => .error .unknownOpcode
  | op :: rest =>
    if op = c.opReadSetup then
      if rest.length = c.colCycles + c.rowCycles then .ok (.opReadSetup rest) else .error .badOperands
    else if op = c.opReadConfirm then
      match rest with
      | [n0, n1] => .ok (.opReadConfirm (BitVec.ofNat 16 (unLe [n0, n1])))
      | _ => .error .badOperands
    else if op = c.opProgSetup then
      if c.colCycles + c.rowCycles ≤ rest.length then
        .ok (.opProgSetup (rest.take (c.colCycles + c.rowCycles)) (rest.drop (c.colCycles + c.rowCycles)))
      else .error .badOperands
    else if op = c.opProgConfirm then
      if rest = [] then .ok .opProgConfirm else .error .badOperands
    else if op = c.opEraseSetup then
      if rest.length = c.rowCycles then .ok (.opEraseSetup rest) else .error .badOperands
    else if op = c.opEraseConfirm then
      if rest = [] then .ok .opEraseConfirm else .error .badOperands
    else if op = c.opReadStatus then
      if rest = [] then .ok .opReadStatus else .error .badOperands
    else if op = c.opReadId then
      if rest = [0x00] then .ok .opReadId else .error .badOperands
    else if op = c.opReset then
      if rest = [] then .ok .opReset else .error .badOperands
    else .error .unknownOpcode

/-! ## The decoder -/

/-- The instruction that bytes found in space `sp` are. Total on any bytes. -/
def decode (c : Config) (sp : Space) (bytes : List Byte) : Except Reject Instr :=
  match sp with
  | .command =>
    match decodeFrame c bytes with
    | .error e => .error e
    | .ok (cmd, p) => decodeCommand c cmd p
  | .response =>
    match decodeFrame c bytes with
    | .error e => .error e
    | .ok (cmd, p) => decodeResponse c cmd p
  | .unit => decodeUnitForm bytes
  | .bus => decodeBus c bytes

/-! ## The encoder -/

/-- The code byte of an instruction: the byte spec/opcode_table.json matches. -/
def Instr.codeByte (c : Config) : Instr → Byte
  | .status => c.commands.status
  | .read _ => c.commands.read
  | .write _ => c.commands.write
  | .erase _ => c.commands.erase
  | .cancel => c.commands.cancel
  | .pause => c.commands.pause
  | .resumeOp => c.commands.resumeOp
  | .setResume _ => c.commands.setResume
  | .powerCheck => c.commands.powerCheck
  | .select _ => c.commands.select
  | .redetect => c.commands.redetect
  | .exit => c.commands.exit
  | .data _ => c.commands.data
  | .rspAck _ _ => c.responses.ack
  | .rspModel _ _ => c.responses.model
  | .rspProgress _ _ _ => c.responses.progress
  | .rspComplete _ _ => c.responses.complete
  | .rspFailed _ _ => c.responses.failed
  | .rspPower _ _ => c.responses.power
  | .rspListStart _ => c.responses.listStart
  | .rspListEntry _ _ => c.responses.listEntry
  | .rspListEnd => c.responses.listEnd
  | .rspData _ => c.responses.data
  | .unitRaw _ => 0x00
  | .unitRle _ => 0x01
  | .unitBlank => 0x02
  | .opReadSetup _ => c.opReadSetup
  | .opReadConfirm _ => c.opReadConfirm
  | .opProgSetup _ _ => c.opProgSetup
  | .opProgConfirm => c.opProgConfirm
  | .opEraseSetup _ => c.opEraseSetup
  | .opEraseConfirm => c.opEraseConfirm
  | .opReadStatus => c.opReadStatus
  | .opReadId => c.opReadId
  | .opReset => c.opReset

/-- What follows the code byte: the payload of a frame (R100 to R111), the body of a stream unit (R113), the operand bytes
of a bus opcode (R62, R194). -/
def Instr.operands : Instr → List Byte
  | .status | .cancel | .pause | .resumeOp | .powerCheck | .redetect | .exit | .rspListEnd | .unitBlank
  | .opProgConfirm | .opEraseConfirm | .opReadStatus | .opReset => []
  | .read r | .write r | .erase r => r.toBytes
  | .setResume b | .select b | .rspListStart b => [b]
  | .data u | .rspData u => u
  | .rspAck a b | .rspFailed a b => [a, b]
  | .rspModel i name | .rspListEntry i name => i :: name
  | .rspProgress p d t => p :: (le32 d ++ le32 t)
  | .rspComplete k n => k :: le32 n
  | .rspPower mv low => le16 mv ++ [if low then 0x01 else 0x00]
  | .unitRaw body => body
  | .unitRle ts => bytesOfTokens ts
  | .opReadSetup addr | .opEraseSetup addr => addr
  | .opReadConfirm n => le16 n
  | .opProgSetup addr bytes => addr ++ bytes
  | .opReadId => [0x00]

/-- The bytes of an instruction: a frame (R142) for a command or a response, code byte and operands for the others. -/
def encode (c : Config) (i : Instr) : List Byte :=
  match i.space with
  | .command | .response => encodeFrame c (i.codeByte c) i.operands
  | .unit | .bus => i.codeByte c :: i.operands

/-! ## Words of spec/opcode_table.json -/

/-- The space a lone code byte is read in. Five bytes stand for two rows of the table; the first of command, response,
unit, bus is taken (notes/assumptions/14.md). -/
def classify (c : Config) (b : Byte) : Space :=
  if (Cmd.ofByte c b).isSome then .command
  else if [c.responses.ack, c.responses.model, c.responses.progress, c.responses.complete, c.responses.failed,
      c.responses.power, c.responses.listStart, c.responses.listEntry, c.responses.listEnd, c.responses.data].contains b
    then .response
  else if b.toNat ≤ 0x02 then .unit
  else .bus

/-- A word of the table laid out as the hardware stores it: its first byte the code, its later bytes the operands, zero
bytes after them up to the length the code asks for; a command or a response becomes a whole frame. -/
def layoutTableWord (c : Config) (nbits w : Nat) : Space × List Byte :=
  match leBytes (nbits / 8) w with
  | [] => (.bus, [])
  | b :: ops =>
    match classify c b with
    | .command => (.command, encodeFrame c b (padTo ((((Cmd.ofByte c b).bind Cmd.fixedLen)).getD 0) ops))
    | .response => (.response, encodeFrame c b (padTo (responseMinLen c b) ops))
    | .unit => (.unit, b :: ops)
    | .bus => (.bus, b :: padTo (busOperandLen c b) ops)

/-- The instruction the decoder reads from the table word `w` of `nbits` bits. -/
def decodeTableWord (nbits w : Nat) : Option Instr :=
  match decode Config.default (layoutTableWord Config.default nbits w).1 (layoutTableWord Config.default nbits w).2 with
  | .ok i => some i
  | .error _ => none

end Sys2Proof
end

