-- ==== Sys2Proof/Machine/State.lean ====
section
/-! DEFINITION. The state of the machine (spec/10_state.md R20 to R31, spec/20_memory.md R66), the reasons it stops, and the
state after reset (spec/70_reset_and_hazards.md R401). -/

namespace Sys2Proof.Machine

/-- `SEQ` (R21): the sequencer's six states. -/
inductive Seq where
  | idle | running | paused | completed | failed | cancelled
deriving DecidableEq, Repr

/-- `RX_STATE` (R23): the frame decoder's twelve states. -/
inductive RxState where
  | hunt0 | hunt1 | cmd | len0 | len1 | len2 | len3 | payload | ck0 | ck1 | ck2 | ck3
deriving DecidableEq, Repr

/-- `STRATEGY` (spec/42_bus_driver.md R202). -/
inductive Strategy where
  | accelerated | direct
deriving DecidableEq, Repr

/-- The causes of spec/60_exceptions.md R361. -/
inductive Cause where
  | none | frameChecksum | frameLength | unknownCommand | badState | busy | badLength | badArgument | badData
  | busTimeout | nandStatusFail | verify | power | integrity | chipNotDetected | cancelled | hostTimeout | frameRetry
deriving DecidableEq, Repr

/-- The operation registers of R21 besides `SEQ`. -/
structure OpRegs where
  cause : Byte
  opKind : Byte
  optCompress : Bool
  optSkipBlank : Bool
  optVerify : Bool
  opStart : U32
  opTotal : U32
  opDone : U32
  curBlock : U32
  curPage : U16
  bytesDone : U64
  lastHash : U32
  frameErrCnt : Byte
deriving DecidableEq, Repr

/-- The frame decoder registers of R23. -/
structure Decoder where
  rxState : RxState
  rxBody : List Byte
  rxLen : U32
  rxCk : U32
deriving DecidableEq, Repr

/-- The session registers of R27, and `STRATEGY` of R401. `timing` is the triple (`T_WC`, `T_RC`, `T_REA`). -/
structure Session where
  profile : Byte
  resumeMode : Bool
  timing : Timing
  sessionToken : U32
  strategy : Strategy
deriving DecidableEq, Repr

/-- The durable checkpoint record of R28. -/
structure Checkpoint where
  valid : Bool
  kind : Byte
  block : U32
  page : U16
  hash : U32
  token : U32
deriving DecidableEq, Repr

/-- The power registers of R29. -/
structure PowerRegs where
  mv : U16
  low : Bool
  lowCount : Byte
deriving DecidableEq, Repr

/-- The content of the NAND array: the cells the engine has changed, as (address, byte) pairs with addresses strictly
rising. An address not listed holds no value here; the die then reads the free value `Config.initialByte`
(notes/assumptions/6.md). -/
abbrev Memory := List Host.Cell

/-- What the die has latched since the last confirm or reset: the MODEL's own rendering of the preconditions of
spec/42_bus_driver.md R185, R186 (notes/assumptions/14.md). -/
inductive Latch where
  | idle
  | read (addr : List Byte)
  | prog (addr : List Byte) (bytes : List Byte)
  | erase (addr : List Byte)
deriving DecidableEq, Repr

/-- The die (spec/20_memory.md R66): the array, the identifier, the true geometry, the status register (R70) and what is
latched. -/
structure Die where
  arr : Memory
  nandId : List Byte
  unitSize : Nat
  pagesPerBlock : Nat
  blockCount : Nat
  status : Byte
  latch : Latch
deriving DecidableEq, Repr

/-- One bus cycle (spec/30_encoding.md R121, spec/42_bus_driver.md R181). -/
inductive BusCycle where
  | cmd (b : Byte)
  | addr (b : Byte)
  | dataWr (b : Byte)
  | dataRd (b : Byte)
  | rb (ready : Bool)
deriving DecidableEq, Repr

/-- Who moves next: the engine, one of the environment's steps (spec/00_scope.md R11), power failing inside the next engine
step (spec/70_reset_and_hazards.md R400), or one instruction of the table issued by itself (notes/assumptions/14.md).
The MODEL's own: the order is free (spec/60_exceptions.md R380). -/
inductive Turn where
  | engine
  | hostSend (bytes : List Byte)
  | powerSample (mv : U16)
  | inactivityTimeout
  | powerOn
  /-- Power fails inside the next engine step, after `effects` durable effects; `inFlight`: an array transaction is then in
  flight and is torn (R72). -/
  | powerOnDuring (effects : Nat) (inFlight : Bool)
  | issue (sp : Space) (bytes : List Byte)
deriving DecidableEq, Repr

/-- The supply inside the step being taken: on, failing after a number of durable effects, or gone. The MODEL's own
(R400). -/
inductive Supply where
  | on
  | failing (effects : Nat) (inFlight : Bool)
  | off
deriving DecidableEq, Repr

/-- The MODEL's own fields: the schedule of turns, the draws the environment has ready, how many free values were taken,
and the supply. -/
structure Env where
  schedule : List Turn
  draws : List Nat
  drawn : Nat
  power : Supply
deriving DecidableEq, Repr

/-- Why the machine stops with a fault. -/
inductive Fault where
  /-- Raised by a rule that reads the geometry or the name of the held profile while `PROFILE` names no entry of the table
  (spec/10_state.md R27: "undefined while `PROFILE = 0xFF`"). No run reaches it. SAFE. -/
  | undefinedGeometry
deriving DecidableEq, Repr

/-- Why the machine refuses to go on. -/
inductive Refusal where
  /-- Raised by an arm of `exec` that has no meaning yet; no arm raises it. SAFE. -/
  | notModelled (mnemonic : String)
  /-- Raised by `step` on a configuration that breaks a constraint of spec/00_scope.md R7 or spec/41_chip_profile.md R170
  (spec/93_implementation_defined.md I19: refuse). SAFE. -/
  | invalidConfig
  /-- Raised by a `hostSend` turn that gives the receive queue more bytes than a bounded `RX_FIFO_DEPTH` holds
  (spec/93_implementation_defined.md I17: refuse). SAFE. -/
  | rxOverrun
  /-- Raised by an `issue` turn whose bytes are no instruction of that space. SAFE. -/
  | notAnInstruction (why : Reject)
deriving DecidableEq, Repr

/-- The state of the whole machine (R20). -/
structure State where
  cfg : Config
  seq : Seq
  op : OpRegs
  dec : Decoder
  ses : Session
  cp : Checkpoint
  pwr : PowerRegs
  rxq : List Byte
  tx : List Byte
  die : Die
  trace : List BusCycle
  env : Env
deriving DecidableEq, Repr

/-- The operation registers after reset (R401). -/
def OpRegs.reset : OpRegs :=
  { cause := 0, opKind := 0, optCompress := false, optSkipBlank := false, optVerify := false, opStart := 0, opTotal := 0
    opDone := 0, curBlock := 0, curPage := 0, bytesDone := 0, lastHash := 0, frameErrCnt := 0 }

/-- The decoder registers after reset (R401). -/
def Decoder.reset : Decoder := { rxState := .hunt0, rxBody := [], rxLen := 0, rxCk := 0 }

/-- The session registers after reset, with the session token that was drawn (R401). -/
def Session.reset (c : Config) (token : U32) : Session :=
  { profile := 0xFF, resumeMode := true, timing := c.timingSafe, sessionToken := token
    strategy := if c.accelAvailable then .accelerated else .direct }

/-- The power registers after reset (R401). -/
def PowerRegs.reset : PowerRegs := { mv := 0, low := false, lowCount := 0 }

/-- The machine after its first power-on ever. `SESSION_TOKEN` (any u32 by R401), the checkpoint's fields (unspecified by
R28), the die's identifier, geometry and status byte are the model's choices (notes/assumptions/8.md); the configuration
is `Config.default` (notes/assumptions/3.md). -/
def State.reset : State :=
  { cfg := Config.default
    seq := .idle
    op := OpRegs.reset
    dec := Decoder.reset
    ses := Session.reset Config.default 0
    cp := { valid := false, kind := 0, block := 0, page := 0, hash := 0, token := 0 }
    pwr := PowerRegs.reset
    rxq := []
    tx := []
    die := { arr := [], nandId := [0x01, 0x02, 0x03, 0x04, 0x05], unitSize := 10, pagesPerBlock := 2, blockCount := 4
             status := 0x40, latch := .idle }
    trace := []
    env := { schedule := [], draws := [], drawn := 0, power := .on } }

end Sys2Proof.Machine
end

