-- ==== Sys2Proof/Machine/Flags.lean ====
section
/-! DEFINITION. The one-bit state, the codes and the tests other rules compute (spec/10_state.md R26, spec/46_sequencer.md R271,
R281, spec/48_commands.md R332, spec/60_exceptions.md R361, spec/47_power_monitor.md R321). -/

namespace Sys2Proof.Machine

/-- The cause codes of spec/60_exceptions.md R361. -/
def Cause.code : Cause → Byte
  | .none => 0x00
  | .frameChecksum => 0x01
  | .frameLength => 0x02
  | .unknownCommand => 0x03
  | .badState => 0x04
  | .busy => 0x05
  | .badLength => 0x06
  | .badArgument => 0x07
  | .badData => 0x08
  | .busTimeout => 0x10
  | .nandStatusFail => 0x11
  | .verify => 0x12
  | .power => 0x13
  | .integrity => 0x14
  | .chipNotDetected => 0x15
  | .cancelled => 0x16
  | .hostTimeout => 0x17
  | .frameRetry => 0x18

/-- `active(SEQ)` of spec/46_sequencer.md R271. -/
def active (q : Seq) : Bool :=
  match q with
  | .running | .paused => true
  | .idle | .completed | .failed | .cancelled => false

/-- `idle_like(SEQ)` of R271. -/
def idleLike (q : Seq) : Bool :=
  match q with
  | .idle | .completed | .failed | .cancelled => true
  | .running | .paused => false

/-- `flags[0]`, use-compression (spec/30_encoding.md R100). -/
def flagCompress (r : Request) : Bool := r.flags.getLsbD 0

/-- `flags[1]`, skip-blank-pages (R100). -/
def flagSkipBlank (r : Request) : Bool := r.flags.getLsbD 1

/-- `flags[2]`, verify (R100). -/
def flagVerify (r : Request) : Bool := r.flags.getLsbD 2

/-- `flags[3]`, full-chip (R100). -/
def flagFullChip (r : Request) : Bool := r.flags.getLsbD 3

/-- Whether one of the reserved bits `flags[7:4]` is set (R100). -/
def flagsReserved (r : Request) : Bool := decide (r.flags.toNat / 16 ≠ 0)

/-- `PWR_LOW` of a sample: strictly below the threshold (spec/47_power_monitor.md R321). -/
def isLow (c : Config) (mv : U16) : Bool := decide (mv.toNat < c.powerThresholdMv)

/-- `min(LOW_COUNT + 1, 255)` (R321). -/
def saturatingSucc (n : Byte) : Byte := BitVec.ofNat 8 (min (n.toNat + 1) 255)

/-- `percent = floor(100 * completed / total)` (spec/30_encoding.md R106, spec/46_sequencer.md R281). -/
def percent (completed total : U32) : Byte := BitVec.ofNat 8 (100 * completed.toNat / total.toNat)

/-- `all_ff` (spec/43_stream_codec.md R221). -/
def allFf (x : List Byte) : Bool := x.all (fun b => b == erased)

/-- The answer of `accept` (spec/48_commands.md R332). -/
inductive Acceptance where
  | accept
  | reject (cause : Cause)
deriving DecidableEq, Repr

/-- `accept(cmd, SEQ, OP_KIND)`, under the command codes of `c`: the table of spec/48_commands.md R332. -/
def accept (c : Config) (k : Cmd) (q : Seq) (opKind : Byte) : Acceptance :=
  match k with
  | .status | .powerCheck | .exit => .accept
  | .read | .write | .erase | .setResume | .select | .redetect => if active q then .reject .busy else .accept
  | .cancel => if active q then .accept else .reject .badState
  | .pause => if q = .running then .accept else .reject .badState
  | .resumeOp => if q = .paused then .accept else .reject .badState
  | .data => if q = .running ∧ opKind = c.commands.write then .accept else .reject .badState

end Sys2Proof.Machine
end

