-- ==== Sys2Proof/Machine/Operands.lean ====
section
/-! DEFINITION. What an instruction's operands denote: the held geometry, the range of a request, positions of the checkpoint,
addresses of the die (spec/20_memory.md R61, R62, spec/46_sequencer.md R277, spec/45_checkpoint.md R254, R257,
spec/41_chip_profile.md R171, R172). -/

namespace Sys2Proof.Machine

/-! ## The held profile (R27) -/

/-- The profile `PROFILE` names; `0xFF` names none (spec/10_state.md R27). -/
def heldProfile (s : State) : Option Profile :=
  if s.ses.profile = 0xFF then none else s.cfg.profileTable[s.ses.profile.toNat]?

/-- What a rule does with the held profile. Where `PROFILE` names no entry its fields are undefined (R27): a fault, in
states no run reaches (notes/assumptions/20.md). -/
def withProfile (s : State) (f : Profile → Host.Outcome State Fault Refusal) : Host.Outcome State Fault Refusal :=
  match heldProfile s with
  | some p => f p
  | none => .fault .undefinedGeometry

/-! ## Addresses of the die (R62) -/

/-- `addr_bytes(col, row)` (spec/20_memory.md R62). -/
def addrBytes (c : Config) (col row : Nat) : List Byte := leBytes c.colCycles col ++ leBytes c.rowCycles row

/-- `row_bytes(row)` (R62). -/
def rowBytes (c : Config) (row : Nat) : List Byte := leBytes c.rowCycles row

/-- The column that address cycles spell. -/
def addrCol (c : Config) (addr : List Byte) : Nat := unLe (addr.take c.colCycles)

/-- The row that address cycles spell. -/
def addrRow (c : Config) (addr : List Byte) : Nat := unLe (addr.drop c.colCycles)

/-- The number of the array cell at (row, column): the number its five default address cycles spell
(notes/assumptions/6.md). -/
def cellAddr (row col : Nat) : Nat := 65536 * row + col

/-! ## The range of a request (R277) -/

/-- `validate` (spec/46_sequencer.md R277): (`OP_START`, `OP_TOTAL`) of a request, `none` where it is invalid. -/
def validate (c : Config) (p : Profile) (kind : Byte) (r : Request) : Option (Nat × Nat) :=
  if flagsReserved r then none
  else if flagFullChip r then
    if kind = c.commands.erase then some (0, p.blockCount) else some (0, p.rows)
  else if r.count.toNat = 0 ∨ p.blockCount ≤ r.startBlock.toNat then none
  else if kind = c.commands.erase then
    if r.startPage.toNat ≠ 0 ∨ p.blockCount < r.startBlock.toNat + r.count.toNat then none
    else some (r.startBlock.toNat, r.count.toNat)
  else if p.pagesPerBlock ≤ r.startPage.toNat then none
  else if p.rows < r.startBlock.toNat * p.pagesPerBlock + r.startPage.toNat + r.count.toNat then none
  else some (r.startBlock.toNat * p.pagesPerBlock + r.startPage.toNat, r.count.toNat)

/-! ## Positions (R25, R254, R257) -/

/-- The row of the cursor, `CUR_BLOCK * PPB + CUR_PAGE` (spec/46_sequencer.md R282). -/
def cursorRow (p : Profile) (s : State) : Nat := s.op.curBlock.toNat * p.pagesPerBlock + s.op.curPage.toNat

/-- `pred(b, p)` (spec/45_checkpoint.md R254): the unit before a position. -/
def predUnit (p : Profile) (block : U32) (page : U16) : U32 × U16 :=
  if page.toNat = 0 then (BitVec.ofNat 32 (block.toNat - 1), BitVec.ofNat 16 (p.pagesPerBlock - 1))
  else (block, BitVec.ofNat 16 (page.toNat - 1))

/-- `cp_row` (R257). -/
def cpRow (p : Profile) (cp : Checkpoint) : Nat := cp.block.toNat * p.pagesPerBlock + cp.page.toNat

/-- `in_range(cp, kind, start, total)` (R257). -/
def cpInRange (c : Config) (p : Profile) (cp : Checkpoint) (kind : Byte) (start total : Nat) : Bool :=
  if kind = c.commands.erase then
    decide (cp.page.toNat = p.pagesPerBlock - 1) && decide (start ≤ cp.block.toNat) && decide (cp.block.toNat < start + total)
  else
    decide (cp.page.toNat < p.pagesPerBlock) && decide (start ≤ cpRow p cp) && decide (cpRow p cp < start + total)

/-- `done0`: the units already done when an operation resumes (R257). -/
def cpDone (c : Config) (p : Profile) (cp : Checkpoint) (kind : Byte) (start : Nat) : Nat :=
  if kind = c.commands.erase then cp.block.toNat - start + 1 else cpRow p cp - start + 1

/-! ## The profile table (R171, R172) -/

/-- The length of the longest identifier in the table that starts `idb`, if one does. -/
def longestMatch (idb : List Byte) : List Profile → Option Nat
  | [] => none
  | p :: r =>
    if p.id.isPrefixOf idb then some (max p.id.length ((longestMatch idb r).getD 0)) else longestMatch idb r

/-- `detect(identifier_bytes)` (spec/41_chip_profile.md R171): the longest match, the lowest index among equals. -/
def detect (c : Config) (idb : List Byte) : Option Nat :=
  match longestMatch idb c.profileTable with
  | none => none
  | some n => c.profileTable.findIdx? (fun p => p.id.isPrefixOf idb && p.id.length == n)

/-- `select(index)` (R172). -/
def selectProfile (c : Config) (index : Byte) : Option Profile := c.profileTable[index.toNat]?

end Sys2Proof.Machine
end

