-- ==== Sys2Proof/Machine/Ops.lean ====
section
/-! DEFINITION. The named operations over the state: draws, the array, the bus trace, `emit`, the durable record, and the two
ways an error is taken (spec/60_exceptions.md R364, R372, R374). -/

namespace Sys2Proof.Machine

/-! ## Draws (R10) -/

/-- `draw x in S`: the next value the environment has ready, or a free value (notes/assumptions/1.md). -/
def draw (s : State) : Nat × State :=
  match s.env.draws with
  | d :: r => (d, { s with env := { s.env with draws := r } })
  | [] => (Config.freeDraw s.env.drawn, { s with env := { s.env with drawn := s.env.drawn + 1 } })

/-- `n` bytes, each a draw. -/
def drawBytes : Nat → State → List Byte × State
  | 0, s => ([], s)
  | n + 1, s =>
    let d := draw s
    let r := drawBytes n d.2
    (BitVec.ofNat 8 d.1 :: r.1, r.2)

/-! ## The array (R66 to R69) -/

/-- The byte listed at an address. An address not listed holds no value: this is what an unlisted address reads as. -/
def Memory.read : Memory → Nat → Option Byte
  | [], _ => none
  | (k, b) :: r, a => if k = a then some b else Memory.read r a

/-- Sets the byte at an address, keeping addresses strictly rising. -/
def Memory.write : Memory → Nat → Byte → Memory
  | [], a, b => [(a, b)]
  | (k, c) :: r, a, b =>
    if a < k then (a, b) :: (k, c) :: r else if a = k then (a, b) :: r else (k, c) :: Memory.write r a b

/-- The canonical form: addresses strictly rising (an unlisted address holds no value, so no entry equals what it reads
as). -/
def Memory.wf (m : Memory) : Bool := decide (m.Pairwise (fun x y => x.1 < y.1))

/-- The byte the die holds in a cell: the listed one, or the free initial content (R66, notes/assumptions/6.md). -/
def cellByte (m : Memory) (a : Nat) : Byte := (Memory.read m a).getD (Config.initialByte a)

/-- Writes bytes at consecutive addresses. -/
def writeRun : Memory → Nat → List Byte → Memory
  | m, _, [] => m
  | m, a, b :: r => writeRun (Memory.write m a b) (a + 1) r

/-- Writes a list of cells, in order. -/
def writeCells : Memory → List Host.Cell → Memory
  | m, [] => m
  | m, (a, b) :: r => writeCells (Memory.write m a b) r

/-- The first `n` bytes of a row (R67). -/
def readRow (m : Memory) (row n : Nat) : List Byte := (List.range n).map (fun i => cellByte m (cellAddr row i))

/-- Programming a row: bits are cleared, never set (R68). -/
def programRow (m : Memory) (row : Nat) (d : List Byte) : Memory :=
  writeRun m (cellAddr row 0) (List.zipWith (fun x y => x &&& y) (readRow m row d.length) d)

/-- Erasing `n` rows of `u` bytes from `row` on (R69). -/
def eraseRows : Memory → Nat → Nat → Nat → Memory
  | m, _, 0, _ => m
  | m, row, n + 1, u => eraseRows (writeRun m (cellAddr row 0) (List.replicate u erased)) (row + 1) n u

/-- The state with another array. -/
def State.setArr (s : State) (m : Memory) : State := { s with die := { s.die with arr := m } }

/-- `n` rows of `u` bytes from `row` on left with drawn bytes: a failed, timed-out or power-torn program or erase
(R68, R69, R72). -/
def tearRows : Nat → Nat → Nat → State → State
  | _, 0, _, s => s
  | row, n + 1, u, s =>
    let d := drawBytes u s
    tearRows (row + 1) n u (d.2.setArr (writeRun d.2.die.arr (cellAddr row 0) d.1))

/-- Any change of the array: a program or erase that R66, R68 and R69 give no effect (DESIGN CHOICE,
notes/assumptions/7.md). -/
def strayChange (s : State) : State :=
  { s with
    die := { s.die with arr := writeCells s.die.arr (Config.strayChange s.env.drawn) }
    env := { s.env with drawn := s.env.drawn + 1 } }

/-! ## Power failing inside a step (R400, R72) -/

/-- An array effect under the supply of the step: `done` while the supply lasts, `torn` when it fails with the transaction
in flight, nothing afterwards (notes/assumptions/13.md). -/
def arrayEffect (done torn : State → State) (s : State) : State :=
  match s.env.power with
  | .on => done s
  | .failing (n + 1) f => done { s with env := { s.env with power := .failing n f } }
  | .failing 0 true => torn { s with env := { s.env with power := .off } }
  | .failing 0 false => { s with env := { s.env with power := .off } }
  | .off => s

/-- The effect of a `save` or `clear` under the supply of the step: whole or not at all (R400: "a `save` or `clear` is
never in flight"). -/
def recordEffect (f : State → State) (s : State) : State :=
  match s.env.power with
  | .on => f s
  | .failing (n + 1) b => f { s with env := { s.env with power := .failing n b } }
  | .failing 0 _ => { s with env := { s.env with power := .off } }
  | .off => s

/-! ## The checkpoint record (R251, R252) -/

/-- `save(kind, block, page, hash, token)` (spec/45_checkpoint.md R251). -/
def save (kind : Byte) (block : U32) (page : U16) (hash token : U32) (s : State) : State :=
  recordEffect
    (fun t => { t with cp := { valid := true, kind := kind, block := block, page := page, hash := hash, token := token } }) s

/-- `clear()` (R252): `CP_VALID <- 0`; the other fields become free values (notes/assumptions/9.md). -/
def clearCp (s : State) : State :=
  recordEffect
    (fun t =>
      { t with
        cp :=
          { valid := false
            kind := BitVec.ofNat 8 (Config.clearedField (5 * t.env.drawn))
            block := BitVec.ofNat 32 (Config.clearedField (5 * t.env.drawn + 1))
            page := BitVec.ofNat 16 (Config.clearedField (5 * t.env.drawn + 2))
            hash := BitVec.ofNat 32 (Config.clearedField (5 * t.env.drawn + 3))
            token := BitVec.ofNat 32 (Config.clearedField (5 * t.env.drawn + 4)) }
        env := { t.env with drawn := t.env.drawn + 1 } })
    s

/-! ## The bus trace (R181) -/

/-- Adds cycles to the bus trace. -/
def cycles (cs : List BusCycle) (s : State) : State := { s with trace := s.trace ++ cs }

/-- Sets what the die has latched. -/
def State.setLatch (s : State) (l : Latch) : State := { s with die := { s.die with latch := l } }

/-- Sets the die's status register (R70). -/
def State.setStatus (s : State) (b : Byte) : State := { s with die := { s.die with status := b } }

/-! ## Output to the host (R10, R142) -/

/-- `emit(code, payload)`: appends the frame of a response to `TX`. A payload above `MAX_PAYLOAD`, which R142 says is never passed
and R7 does not rule out, is emitted like any other (DESIGN CHOICE, notes/assumptions/30.md). -/
def emit (i : Instr) (s : State) : State := { s with tx := s.tx ++ encode s.cfg i }

/-! ## Taking an error (R374) -/

/-- A refusal: `raise ProtocolError(cause, context)` is one `RSP_FAILED` and nothing else (spec/60_exceptions.md R364). -/
def reject (cause : Cause) (context : Byte) (s : State) : State := emit (.rspFailed cause.code context) s

/-- The end of an operation with a failure frame: `SEQ`, `CAUSE`, one `RSP_FAILED` whose context is `OP_KIND`. Terminal
failure (R372) and cancel (R290) are this with different `SEQ`. -/
def endWith (q : Seq) (cause : Cause) (s : State) : State :=
  emit (.rspFailed cause.code s.op.opKind) { s with seq := q, op := { s.op with cause := cause.code } }

/-- `fail(cause)` (spec/60_exceptions.md R372). -/
def fail (cause : Cause) (s : State) : State := endWith .failed cause s

end Sys2Proof.Machine
end

