-- ==== Sys2Proof/Machine/Bus.lean ====
section
/-! DEFINITION. BusDriver: bus cycles, readiness polling, the memory transactions, bounded retry, autotune
(spec/42_bus_driver.md R180 to R201), and the die's answers (spec/20_memory.md R66 to R72). -/

namespace Sys2Proof.Machine

/-! ## The die's contract (R66 to R69) -/

/-- The held profile and the die agree on the geometry; only there R67 to R69 hold (spec/20_memory.md R66). -/
def dieAgrees (s : State) : Bool :=
  match heldProfile s with
  | none => false
  | some p =>
    decide (p.unitSize = s.die.unitSize) && decide (p.pagesPerBlock = s.die.pagesPerBlock) &&
      decide (p.blockCount = s.die.blockCount)

/-- The address cycles name column 0 of a row of the die, with the full number of cycles (R62, R66). -/
def pageAddrOk (s : State) (addr : List Byte) : Bool :=
  dieAgrees s && decide (addr.length = s.cfg.colCycles + s.cfg.rowCycles) && decide (addrCol s.cfg addr = 0) &&
    decide (addrRow s.cfg addr < s.die.blockCount * s.die.pagesPerBlock)

/-- The address cycles name the first row of a block of the die (R62: erase takes row bytes only). -/
def blockAddrOk (s : State) (addr : List Byte) : Bool :=
  dieAgrees s && decide (addr.length = s.cfg.rowCycles) && decide (unLe addr < s.die.blockCount * s.die.pagesPerBlock) &&
    decide (unLe addr % s.die.pagesPerBlock = 0)

/-- The bytes the die drives on `n` data read cycles after a read confirm (R67). DESIGN CHOICE (notes/assumptions/7.md): a
read the rule does not speak of (an address that names no row, more than a row's bytes, no read setup latched) brings drawn
bytes. -/
def dieRead (l : Latch) (n : Nat) (s : State) : List Byte × State :=
  match l with
  | .read addr =>
    if pageAddrOk s addr && decide (n ≤ s.die.unitSize) then (readRow s.die.arr (addrRow s.cfg addr) n, s)
    else drawBytes n s
  | .idle | .prog _ _ | .erase _ => drawBytes n s

/-- What a program confirm does to the array (R68): `passed` is the operation's success. DESIGN CHOICE
(notes/assumptions/7.md): R68, R186 and R197 speak of exactly `U` data bytes at the address of a row. A confirm with fewer or
more bytes latched, with another address, or with no program setup latched changes the cells `Config.strayChange` names, of
the latched row or any other. Only an `issue` turn can bring fewer or more bytes while profile and die agree. -/
def dieProgram (l : Latch) (passed : Bool) (s : State) : State :=
  match l with
  | .prog addr bytes =>
    if pageAddrOk s addr && decide (bytes.length = s.die.unitSize) then
      arrayEffect
        (fun t =>
          if passed then t.setArr (programRow t.die.arr (addrRow s.cfg addr) bytes)
          else tearRows (addrRow s.cfg addr) 1 s.die.unitSize t)
        (tearRows (addrRow s.cfg addr) 1 s.die.unitSize) s
    else arrayEffect strayChange strayChange s
  | .idle | .read _ | .erase _ => arrayEffect strayChange strayChange s

/-- What an erase confirm does to the array (R69). DESIGN CHOICE (notes/assumptions/7.md): a confirm with an address that
names no block, or with no erase setup latched, changes the cells `Config.strayChange` names. -/
def dieErase (l : Latch) (passed : Bool) (s : State) : State :=
  match l with
  | .erase addr =>
    if blockAddrOk s addr then
      arrayEffect
        (fun t =>
          if passed then t.setArr (eraseRows t.die.arr (unLe addr) s.die.pagesPerBlock s.die.unitSize)
          else tearRows (unLe addr) s.die.pagesPerBlock s.die.unitSize t)
        (tearRows (unLe addr) s.die.pagesPerBlock s.die.unitSize) s
    else arrayEffect strayChange strayChange s
  | .idle | .read _ | .prog _ _ => arrayEffect strayChange strayChange s

/-! ## Cycles and readiness (R182, R183, R190) -/

/-- `send_command(opcode)` (R182). -/
def sendCommand (b : Byte) (s : State) : State := cycles [.cmd b] s

/-- `send_address(bytes)` (R183). -/
def sendAddress (bytes : List Byte) (s : State) : State := cycles (bytes.map .addr) s

/-- The samples `wait_ready(t)` takes of a die that is busy for `k` samples: `true` is `Ready` (R190, R71). -/
def rbSamples : Nat → Nat → List Bool
  | _, 0 => []
  | 0, _ + 1 => [true]
  | k + 1, t + 1 => false :: rbSamples k t

/-- `wait_ready(t)` (R190): the busy period is a draw (R71); `true` is `Ready`. -/
def waitReady (t : Nat) (s : State) : Bool × State :=
  let d := draw s
  (decide (d.1 < t), cycles ((rbSamples d.1 t).map .rb) d.2)

/-! ## Bus operations: one for each opcode of R118 -/

/-- `OP_READ_SETUP` and its address cycles (R196). -/
def busReadSetup (addr : List Byte) (s : State) : State :=
  (sendAddress addr (sendCommand s.cfg.opReadSetup s)).setLatch (.read addr)

/-- `read_page(n)` (R185): `none` is `Timeout`. -/
def busReadConfirm (n : Nat) (s : State) : Option (List Byte) × State :=
  let w := waitReady s.cfg.readyTimeoutRead (sendCommand s.cfg.opReadConfirm s)
  if w.1 then
    let r := dieRead s.die.latch n (w.2.setLatch .idle)
    (some r.1, cycles (r.1.map .dataRd) r.2)
  else (none, w.2.setLatch .idle)

/-- `OP_PROG_SETUP`, its address cycles and the data write cycles (R197, R186). -/
def busProgSetup (addr bytes : List Byte) (s : State) : State :=
  (cycles (bytes.map .dataWr) (sendAddress addr (sendCommand s.cfg.opProgSetup s))).setLatch (.prog addr bytes)

/-- `OP_PROG_CONFIRM` and the ready wait (R186): `true` is `Ready`. The die's status byte is a draw whose bit 0 says
whether the program failed and whose bit 6 is 1 when ready (R70, R120). -/
def busProgConfirm (s : State) : Bool × State :=
  let w := waitReady s.cfg.readyTimeoutProg (sendCommand s.cfg.opProgConfirm s)
  let d := draw (w.2.setLatch .idle)
  let st : Byte := if w.1 then BitVec.ofNat 8 d.1 ||| 0x40 else BitVec.ofNat 8 d.1
  (w.1, dieProgram s.die.latch (w.1 && !st.getLsbD 0) (d.2.setStatus st))

/-- `OP_ERASE_SETUP` and its row address cycles (R187). -/
def busEraseSetup (addr : List Byte) (s : State) : State :=
  (sendAddress addr (sendCommand s.cfg.opEraseSetup s)).setLatch (.erase addr)

/-- `OP_ERASE_CONFIRM` and the ready wait (R187): `true` is `Ready`. -/
def busEraseConfirm (s : State) : Bool × State :=
  let w := waitReady s.cfg.readyTimeoutErase (sendCommand s.cfg.opEraseConfirm s)
  let d := draw (w.2.setLatch .idle)
  let st : Byte := if w.1 then BitVec.ofNat 8 d.1 ||| 0x40 else BitVec.ofNat 8 d.1
  (w.1, dieErase s.die.latch (w.1 && !st.getLsbD 0) (d.2.setStatus st))

/-- `read_status()` (R193). -/
def busReadStatus (s : State) : Byte × State :=
  (s.die.status, (cycles [.cmd s.cfg.opReadStatus, .dataRd s.die.status] s).setLatch .idle)

/-- The bytes of an identifier read: the first `ID_LEN` of `NAND_ID` (R72). R66 gives `NAND_ID` at least `ID_LEN` bytes;
bytes a shorter one lacks are drawn. -/
def idBytes (s : State) : List Byte × State :=
  let d := drawBytes (s.cfg.idLen - s.die.nandId.length) s
  ((s.die.nandId ++ d.1).take s.cfg.idLen, d.2)

/-- The bus cycles of an identifier read that brings `bytes` (R194). -/
def idCycles (bytes : List Byte) (s : State) : State :=
  (cycles (.cmd s.cfg.opReadId :: .addr 0x00 :: bytes.map .dataRd) s).setLatch .idle

/-- `read_id()` (R194). -/
def busReadId (s : State) : List Byte × State :=
  let r := idBytes s
  (r.1, idCycles r.1 r.2)

/-- `nand_reset()` (R191): `true` is `Ready`. -/
def busReset (s : State) : Bool × State :=
  let w := waitReady s.cfg.readyTimeoutReset (sendCommand s.cfg.opReset s)
  (w.1, w.2.setLatch .idle)

/-! ## Memory transactions (R196 to R199) -/

/-- `Ok`, `StatusFail` or `Timeout`. -/
inductive BusResult (α : Type) where
  | ok (a : α)
  | statusFail
  | timeout
deriving DecidableEq, Repr

/-- `MemRead(row, n)` (R196). -/
def memRead (row n : Nat) (s : State) : BusResult (List Byte) × State :=
  let r := busReadConfirm n (busReadSetup (addrBytes s.cfg 0 row) s)
  match r.1 with
  | some x => (.ok x, r.2)
  | none => (.timeout, r.2)

/-- The status read that ends a program or an erase (R186, R187, R366). -/
def checkStatus (ready : Bool) (s : State) : BusResult Unit × State :=
  if ready then
    let q := busReadStatus s
    (if q.1.getLsbD 0 then .statusFail else .ok (), q.2)
  else (.timeout, s)

/-- `MemWrite(row, bytes)` (R197). -/
def memWrite (row : Nat) (bytes : List Byte) (s : State) : BusResult Unit × State :=
  let r := busProgConfirm (busProgSetup (addrBytes s.cfg 0 row) bytes s)
  checkStatus r.1 r.2

/-- `MemErase(block)`, that is `erase_block(block)` (R187, R198). -/
def memErase (p : Profile) (block : Nat) (s : State) : BusResult Unit × State :=
  let r := busEraseConfirm (busEraseSetup (rowBytes s.cfg (block * p.pagesPerBlock)) s)
  checkStatus r.1 r.2

/-- `with_bus_retry(txn)` (R199) with `k` retries left: only `Timeout` is retried. -/
def withBusRetry {α : Type} (txn : State → BusResult α × State) : Nat → State → BusResult α × State
  | 0, s => txn s
  | k + 1, s =>
    match (txn s).1 with
    | .timeout => withBusRetry txn k (txn s).2
    | .ok _ | .statusFail => txn s

/-- `with_bus_retry(MemRead(row, n))`. -/
def readRetry (row n : Nat) (s : State) : BusResult (List Byte) × State := withBusRetry (memRead row n) s.cfg.busRetryMax s

/-- `with_bus_retry(MemWrite(row, bytes))`. -/
def writeRetry (row : Nat) (bytes : List Byte) (s : State) : BusResult Unit × State :=
  withBusRetry (memWrite row bytes) s.cfg.busRetryMax s

/-- `with_bus_retry(MemErase(block))`. -/
def eraseRetry (p : Profile) (block : Nat) (s : State) : BusResult Unit × State :=
  withBusRetry (memErase p block) s.cfg.busRetryMax s

/-- The die reset of `REDETECT` with `k` retries left (spec/48_commands.md R340). -/
def resetRetry : Nat → State → Bool × State
  | 0, s => busReset s
  | k + 1, s => if (busReset s).1 then busReset s else resetRetry k (busReset s).2

/-! ## Autotune (R201) -/

/-- Sets the three timing registers. -/
def setTiming (t : Timing) (s : State) : State := { s with ses := { s.ses with timing := t } }

/-- `read_id()` at a candidate timing: the die's answer is a draw (R201). -/
def trialReadId (s : State) : List Byte × State :=
  let d := drawBytes s.cfg.idLen s
  (d.1, idCycles d.1 d.2)

/-- The loop of `autotune` over the candidates: the first failing one ends the pass (R201, spec/90_conflicts.md C5). -/
def autotuneLoop (ref : List Byte) : List Timing → Timing → State → State
  | [], best, s => setTiming best s
  | c :: cs, best, s =>
    let g := trialReadId (setTiming c s)
    if g.1 = ref then autotuneLoop ref cs c g.2 else setTiming best g.2

/-- `autotune()` (R201). -/
def autotune (s : State) : State :=
  let r := busReadId (setTiming s.cfg.timingSafe s)
  autotuneLoop r.1 s.cfg.autotuneCandidates s.cfg.timingSafe r.2

end Sys2Proof.Machine
end

