-- ==== Sys2Proof/Machine/Stream.lean ====
section
/-! DEFINITION. StreamCodec and IntegrityTracker: run-length coding, blank-page elision, the chunk hash
(spec/43_stream_codec.md R220 to R228, spec/44_integrity.md R240 to R243). -/

namespace Sys2Proof.Machine

/-- The run tokens of `[v, v, ..] ++ x` where the run of `v` has `n` bytes so far, cut at `maxRun` (R222). -/
def rleRun (maxRun : Nat) (v : Byte) (n : Nat) : List Byte → List Byte
  | [] => [v, BitVec.ofNat 8 n]
  | b :: r => if b = v ∧ n < maxRun then rleRun maxRun v (n + 1) r else v :: BitVec.ofNat 8 n :: rleRun maxRun b 1 r

/-- `rle_encode(x)` (R222). -/
def rleEncode (maxRun : Nat) : List Byte → List Byte
  | [] => []
  | b :: r => rleRun maxRun b 1 r

/-- `encode_unit(x, compress, skipblank)` (R223). -/
def encodeUnit (maxRun : Nat) (x : List Byte) (compress skipBlank : Bool) : List Byte :=
  if skipBlank && allFf x then [0x02]
  else if compress then 0x01 :: rleEncode maxRun x
  else 0x00 :: x

/-- The token loop of `decode_unit` (R226). -/
def rleDecode (u : Nat) : List Byte → List Byte → Option (List Byte)
  | out, [] => if out.length = u then some out else none
  | _, [_] => none
  | out, v :: n :: r =>
    if n = 0 then none
    else if u < (out ++ List.replicate n.toNat v).length then none
    else rleDecode u (out ++ List.replicate n.toNat v) r

/-- `decode_unit(p, U)` (R226): `none` is `StreamError`. -/
def decodeUnit (u : Nat) (p : List Byte) : Option (List Byte) :=
  match p with
  | [] => none
  | tag :: body =>
    if tag = 0x00 then (if body.length = u then some body else none)
    else if tag = 0x02 then (if body = [] then some (List.replicate u erased) else none)
    else if tag = 0x01 then (if body = [] ∨ body.length % 2 = 1 then none else rleDecode u [] body)
    else none

/-- `HASH(x)` (spec/44_integrity.md R241): multiply by 33, then XOR the byte, from `HASH_INIT`; or the function the
configuration takes in its place (R240). -/
def chunkHash (c : Config) (x : List Byte) : U32 :=
  match c.hash with
  | .mulXor => x.foldl (fun h b => (h * 33) ^^^ BitVec.setWidth 32 b) c.hashInit
  | .other n => Config.otherHash n x

end Sys2Proof.Machine
end

