-- ==== Sys2Proof/Machine/Sequencer.lean ====
section
/-! DEFINITION. OperationSequencer, CheckpointStore's resume decision and PowerMonitor (spec/46_sequencer.md R276 to R290,
spec/45_checkpoint.md R250 to R258, spec/47_power_monitor.md R321 to R323). -/

namespace Sys2Proof.Machine

/-! ## Progress, cursor, end of a unit (R25, R281, R283) -/

/-- `emit_progress()` (R281). -/
def emitProgress (s : State) : State :=
  emit (.rspProgress (percent s.op.opDone s.op.opTotal) s.op.opDone s.op.opTotal) s

/-- The cursor after a completed unit (spec/10_state.md R25). -/
def advanceCursor (c : Config) (p : Profile) (o : OpRegs) : OpRegs :=
  if o.opKind = c.commands.erase then { o with curBlock := o.curBlock + 1 }
  else if o.curPage.toNat + 1 = p.pagesPerBlock then { o with curBlock := o.curBlock + 1, curPage := 0 }
  else { o with curPage := o.curPage + 1 }

/-- `set_cursor(u)` (R279). -/
def setCursor (c : Config) (p : Profile) (u : Nat) (o : OpRegs) : OpRegs :=
  if o.opKind = c.commands.erase then { o with curBlock := BitVec.ofNat 32 u, curPage := 0 }
  else { o with curBlock := BitVec.ofNat 32 (u / p.pagesPerBlock), curPage := BitVec.ofNat 16 (u % p.pagesPerBlock) }

/-- The save of R254: the position of the last completed unit, `pred(CUR_BLOCK, CUR_PAGE)`. -/
def saveProgress (p : Profile) (s : State) : State :=
  save s.op.opKind (predUnit p s.op.curBlock s.op.curPage).1 (predUnit p s.op.curBlock s.op.curPage).2 s.op.lastHash
    s.ses.sessionToken s

/-- The operation is done: `SEQ <- Completed; clear()` (R283, R258). -/
def completeOp (s : State) : State := clearCp { s with seq := .completed }

/-- `RSP_COMPLETE(kind, units)` (spec/30_encoding.md R107). -/
def emitComplete (s : State) : State := emit (.rspComplete s.op.opKind s.op.opDone) s

/-- `finish_unit()` (R283). -/
def finishUnit (p : Profile) (s : State) : State :=
  let s1 := { s with op := advanceCursor s.cfg p { s.op with opDone := s.op.opDone + 1 } }
  if s1.op.opDone = s1.op.opTotal then emitComplete (emitProgress (completeOp s1))
  else if s1.op.curPage.toNat = 0 then emitProgress (saveProgress p s1)
  else emitProgress s1

/-! ## Read, Write and Erase units (R282, R284 to R286) -/

/-- What a completed Read or Write unit does to the registers: `update(x)` (spec/44_integrity.md R243) and
`BYTES_DONE + U`. -/
def updateChunk (p : Profile) (x : List Byte) (s : State) : State :=
  { s with
    op := { s.op with lastHash := chunkHash s.cfg x, bytesDone := s.op.bytesDone + BitVec.ofNat 64 p.unitSize } }

/-- `ReadUnit` (R282). -/
def readUnit (p : Profile) (s : State) : State :=
  let r := readRetry (cursorRow p s) p.unitSize s
  match r.1 with
  | .ok x =>
    finishUnit p
      (emit (.rspData (encodeUnit s.cfg.maxRun x s.op.optCompress s.op.optSkipBlank)) (updateChunk p x r.2))
  | .statusFail | .timeout => fail .busTimeout r.2

/-- `write_one(row, x)` (R285) with `k` verify retries left: the cause it fails with, if it does. -/
def writeOne (p : Profile) (row : Nat) (x : List Byte) : Nat → State → Option Cause × State
  | k, s =>
    let w := writeRetry row x s
    match w.1 with
    | .timeout => (some .busTimeout, w.2)
    | .statusFail => (some .nandStatusFail, w.2)
    | .ok _ =>
      if s.op.optVerify = false then (none, w.2)
      else
        let rb := readRetry row p.unitSize w.2
        match rb.1 with
        | .ok y =>
          if y = x then (none, rb.2)
          else
            match k with
            | 0 => (some .verify, rb.2)
            | k + 1 => writeOne p row x k rb.2
        | .statusFail | .timeout => (some .busTimeout, rb.2)

/-- The tail of a Write unit: hash, count, clear `FRAME_ERR_CNT`, finish (R284). -/
def finishWrite (p : Profile) (x : List Byte) (s : State) : State :=
  finishUnit p
    { updateChunk p x s with op := { (updateChunk p x s).op with frameErrCnt := 0 } }

/-- `on_data(p)` (R284) for the unit bytes `x`: a blank unit under skip-blank is not programmed. -/
def writeUnit (p : Profile) (x : List Byte) (s : State) : State :=
  if s.op.optSkipBlank && allFf x then finishWrite p x s
  else
    let r := writeOne p (cursorRow p s) x s.cfg.verifyRetryMax s
    match r.1 with
    | some c => fail c r.2
    | none => finishWrite p x r.2

/-- `on_data(payload)` (R284). -/
def onData (payload : List Byte) (s : State) : Host.Outcome State Fault Refusal :=
  withProfile s (fun p =>
    match decodeUnit p.unitSize payload with
    | none => .next (reject .badData s.cfg.commands.data s)
    | some x => .next (writeUnit p x s))

/-- The verify of an erased block (R286): pages from `row` on, `n` of them. `some true` all blank, `some false` a page that
is not, `none` a `Timeout`. -/
def blankCheck (u : Nat) : Nat → Nat → State → Option Bool × State
  | _, 0, s => (some true, s)
  | row, n + 1, s =>
    let rb := readRetry row u s
    match rb.1 with
    | .ok y => if allFf y then blankCheck u (row + 1) n rb.2 else (some false, rb.2)
    | .statusFail | .timeout => (none, rb.2)

/-- The erase attempts of `EraseUnit` (R286) with `k` verify retries left: the cause it fails with, if it does. -/
def eraseOne (p : Profile) (block : Nat) : Nat → State → Option Cause × State
  | k, s =>
    let w := eraseRetry p block s
    match w.1 with
    | .timeout => (some .busTimeout, w.2)
    | .statusFail => (some .nandStatusFail, w.2)
    | .ok _ =>
      if s.op.optVerify = false then (none, w.2)
      else
        let v := blankCheck p.unitSize (block * p.pagesPerBlock) p.pagesPerBlock w.2
        match v.1 with
        | none => (some .busTimeout, v.2)
        | some true => (none, v.2)
        | some false =>
          match k with
          | 0 => (some .verify, v.2)
          | k + 1 => eraseOne p block k v.2

/-- `EraseUnit` (R286). -/
def eraseUnit (p : Profile) (s : State) : State :=
  let r := eraseOne p s.op.curBlock.toNat s.cfg.verifyRetryMax s
  match r.1 with
  | some c => fail c r.2
  | none => finishUnit p r.2

/-! ## The resume decision (R255 to R257) -/

/-- The result of `resume_decision`: `BusTimeout`, or the `info` byte and the units already done. -/
inductive Resume where
  | busTimeout
  | start (info : Byte) (done0 : Nat)
deriving DecidableEq, Repr

/-- `resume_decision(kind, start, total)` (spec/45_checkpoint.md R255). -/
def resumeDecision (p : Profile) (kind : Byte) (start total : Nat) (s : State) : Resume × State :=
  if s.cp.valid = false then (.start 0 0, s)
  else if s.cp.kind ≠ kind ∨ s.ses.resumeMode = false ∨ cpInRange s.cfg p s.cp kind start total = false then
    (.start 3 0, clearCp s)
  else if kind = s.cfg.commands.write then
    let r := readRetry (cpRow p s.cp) p.unitSize s
    match r.1 with
    | .ok x => if chunkHash s.cfg x = s.cp.hash then (.start 1 (cpDone s.cfg p s.cp kind start), r.2) else (.start 2 0, clearCp r.2)
    | .statusFail | .timeout => (.busTimeout, r.2)
  else (.start 1 (cpDone s.cfg p s.cp kind start), s)

/-! ## Starting an operation (R276, R279) -/

/-- The registers an accepted request writes before the resume decision (R279). -/
def beginOp (p : Profile) (kind : Byte) (r : Request) (start total : Nat) (s : State) : State :=
  { s with
    seq := .running
    op :=
      setCursor s.cfg p start
        { cause := 0, opKind := kind, optCompress := flagCompress r, optSkipBlank := flagSkipBlank r
          optVerify := flagVerify r, opStart := BitVec.ofNat 32 start, opTotal := BitVec.ofNat 32 total, opDone := 0
          curBlock := s.op.curBlock, curPage := s.op.curPage, bytesDone := 0, lastHash := 0, frameErrCnt := 0 } }

/-- The registers a resumed operation takes over (R279, `info = 1`). -/
def takeOver (p : Profile) (start done0 : Nat) (s : State) : State :=
  { s with
    op :=
      { setCursor s.cfg p (start + done0) s.op with
        opDone := BitVec.ofNat 32 done0
        lastHash := s.cp.hash
        bytesDone :=
          if s.op.opKind = s.cfg.commands.erase then s.op.bytesDone else BitVec.ofNat 64 (done0 * p.unitSize) } }

/-- The answer of an accepted request: acknowledgement, progress, and completion at once when a resume left nothing to do
(R279). -/
def announce (info : Byte) (s : State) : State :=
  let s1 := emitProgress (emit (.rspAck s.op.opKind info) s)
  if s1.op.opDone = s1.op.opTotal then emitComplete (completeOp s1) else s1

/-- `start_op` once the request is validated (R279). -/
def runOp (p : Profile) (kind : Byte) (r : Request) (start total : Nat) (s : State) : State :=
  let d := resumeDecision p kind start total (beginOp p kind r start total s)
  match d.1 with
  | .busTimeout => fail .busTimeout d.2
  | .start info done0 => announce info (if info = 1 then takeOver p start done0 d.2 else d.2)

/-- `start_op(cmd, p)` (R279), the handler of `READ`, `WRITE`, `ERASE`. -/
def startOp (kind : Byte) (r : Request) (s : State) : Host.Outcome State Fault Refusal :=
  if s.ses.profile = 0xFF then .next (reject .chipNotDetected kind s)
  else
    withProfile s (fun p =>
      match validate s.cfg p kind r with
      | none => .next (reject .badArgument kind s)
      | some (start, total) => .next (runOp p kind r start total s))

/-! ## Pause and cancel (R288, R290) -/

/-- `on_pause()` (R288). `pred` reads the geometry, so with units done a profile must be held. -/
def onPause (s : State) : Host.Outcome State Fault Refusal :=
  if s.op.opDone.toNat = 0 then .next (emit (.rspAck s.cfg.commands.pause 0) { s with seq := .paused })
  else withProfile s (fun p => .next (emit (.rspAck s.cfg.commands.pause 0) (saveProgress p { s with seq := .paused })))

/-- Cancel (R290). -/
def cancelOp (s : State) : State := endWith .cancelled .cancelled s

/-! ## PowerMonitor (spec/47_power_monitor.md) -/

/-- `PowerSample(mv)` (R321, R322). -/
def powerSample (mv : U16) (s : State) : State :=
  if isLow s.cfg mv then
    let s1 :=
      emit (.rspPower mv true)
        { s with pwr := { mv := mv, low := true, lowCount := saturatingSucc s.pwr.lowCount } }
    if active s1.seq ∧ s1.cfg.powerFailCount ≤ s1.pwr.lowCount.toNat then fail .power s1 else s1
  else { s with pwr := { mv := mv, low := false, lowCount := 0 } }

/-- The sample of `POWER_CHECK` (R323): a draw, reported and not counted. -/
def powerCheck (s : State) : State :=
  let d := draw s
  let mv : U16 := BitVec.ofNat 16 d.1
  emit (.rspPower mv (isLow s.cfg mv)) { d.2 with pwr := { d.2.pwr with mv := mv, low := isLow s.cfg mv } }

end Sys2Proof.Machine
end

