-- ==== Sys2Proof/Machine/Session.lean ====
section
/-! DEFINITION. Reset, the session, and the environment's steps that do not run an instruction (spec/70_reset_and_hazards.md
R400 to R403, spec/60_exceptions.md R363, R376, spec/46_sequencer.md R293). -/

namespace Sys2Proof.Machine

/-- `session_start()` (spec/70_reset_and_hazards.md R401): `SESSION_TOKEN` is a draw. -/
def sessionStart (s : State) : State :=
  let d := draw s
  { d.2 with
    seq := .idle
    op := OpRegs.reset
    dec := Decoder.reset
    ses := Session.reset d.2.cfg (BitVec.ofNat 32 d.1)
    pwr := PowerRegs.reset }

/-- `PowerOn` (R401): `RXQ <- []; TX <- []; session_start()`. The bus trace, an observation like `TX`, starts anew
(notes/assumptions/16.md); the die's latch is empty and its status byte, which no rule gives after power-on, is drawn. -/
def powerOn (s : State) : State :=
  let t := sessionStart { s with rxq := [], tx := [], trace := [], env := { s.env with power := .on } }
  let d := draw t
  (d.2.setStatus (BitVec.ofNat 8 d.1)).setLatch .idle

/-- `emit_listing()` (spec/41_chip_profile.md R173): the entries from index `i` on. -/
def emitEntries : Nat → List Profile → State → State
  | _, [], s => s
  | i, p :: r, s => emitEntries (i + 1) r (emit (.rspListEntry (BitVec.ofNat 8 i) p.name) s)

/-- `emit_listing()` (R173). -/
def emitListing (s : State) : State :=
  emit .rspListEnd
    (emitEntries 0 s.cfg.profileTable (emit (.rspListStart (BitVec.ofNat 8 s.cfg.profileTable.length)) s))

/-- ChipNotDetected with the manual-selection listing (spec/41_chip_profile.md R174, spec/60_exceptions.md R370). -/
def rejectNoChip (context : Byte) (s : State) : State := emitListing (reject .chipNotDetected context s)

/-- `on_exit()` (spec/48_commands.md R341). -/
def onExit (s : State) : State :=
  sessionStart (emit (.rspAck s.cfg.commands.exit 0) (if active s.seq then cancelOp s else s))

/-- `on_redetect()` (spec/48_commands.md R340). -/
def onRedetect (s : State) : State :=
  let r := resetRetry s.cfg.busRetryMax { s with ses := { s.ses with profile := 0xFF } }
  if r.1 = false then reject .busTimeout s.cfg.commands.redetect r.2
  else
    let q := busReadId r.2
    match detect s.cfg q.1 with
    | none => rejectNoChip s.cfg.commands.redetect q.2
    | some i =>
      let t := { q.2 with ses := { q.2.ses with profile := BitVec.ofNat 8 i } }
      emit (.rspModel (BitVec.ofNat 8 i) (((s.cfg.profileTable[i]?).map Profile.name).getD []))
        (if s.cfg.autotuneEn then autotune t else t)

/-- `on_select(index)` (spec/48_commands.md R339). -/
def onSelect (index : Byte) (s : State) : State :=
  match selectProfile s.cfg index with
  | none => rejectNoChip s.cfg.commands.select s
  | some p => emit (.rspModel index p.name) { s with ses := { s.ses with profile := index } }

/-- `on_set_resume(mode)` (spec/48_commands.md R337). -/
def onSetResume (mode : Byte) (s : State) : State :=
  if 1 < mode.toNat then reject .badArgument s.cfg.commands.setResume s
  else if mode = 0 then
    emit (.rspAck s.cfg.commands.setResume 0) (clearCp { s with ses := { s.ses with resumeMode := false } })
  else emit (.rspAck s.cfg.commands.setResume 0) { s with ses := { s.ses with resumeMode := true } }

/-- `FRAME_ERR_CNT + 1` (spec/60_exceptions.md R363). Above 255 the u8 register cannot hold it and the spec states no value: a
free value, which the register keeps as far as 8 bits go (notes/assumptions/4.md). -/
def bumpFrameErr (s : State) : Nat × State :=
  if s.op.frameErrCnt.toNat < 255 then
    (s.op.frameErrCnt.toNat + 1, { s with op := { s.op with frameErrCnt := s.op.frameErrCnt + 1 } })
  else
    (Config.frameCountOverflow s.env.drawn,
      { s with
        op := { s.op with frameErrCnt := BitVec.ofNat 8 (Config.frameCountOverflow s.env.drawn) }
        env := { s.env with drawn := s.env.drawn + 1 } })

/-- FrameError (spec/60_exceptions.md R363). -/
def onFrameError (cause : Cause) (s : State) : State :=
  let s1 := reject cause 0x00 s
  if s.seq = .running ∧ s.op.opKind = s.cfg.commands.write then
    let r := bumpFrameErr s1
    if s.cfg.frameRetryMax < r.1 then fail .frameRetry r.2 else r.2
  else s1

/-- The machine is quiescent (spec/46_sequencer.md R293): no engine step is enabled. -/
def quiescent (s : State) : Bool :=
  decide (s.rxq = []) &&
    !(decide (s.seq = .running) && (decide (s.op.opKind = s.cfg.commands.read) || decide (s.op.opKind = s.cfg.commands.erase)))

/-- `InactivityTimeout` (spec/60_exceptions.md R376), enabled only when quiescent; a turn that names it where it is not
enabled does nothing (notes/assumptions/21.md). -/
def inactivityTimeout (s : State) : State :=
  if quiescent s then
    let s1 := { s with dec := { s.dec with rxState := .hunt0 } }
    { (if active s1.seq then endWith .idle .hostTimeout s1 else s1) with seq := .idle }
  else s

/-- `HostSend` (spec/10_state.md R30): the host appends bytes to `RXQ`. A bounded queue that would overrun is outside the
spec (R411 a): refused. -/
def hostSend (bytes : List Byte) (s : State) : Host.Outcome State Fault Refusal :=
  match s.cfg.rxFifoDepth with
  | none => .next { s with rxq := s.rxq ++ bytes }
  | some d =>
    if s.rxq.length + bytes.length ≤ d then .next { s with rxq := s.rxq ++ bytes } else .refused .rxOverrun

end Sys2Proof.Machine
end

