-- ==== Sys2Proof/Machine/Commands.lean ====
section
/-! DEFINITION. The thirteen host commands (spec/48_commands.md R330 to R343): the state check of R332, then the handler. -/

namespace Sys2Proof.Machine

/-- The third check of `dispatch` (spec/46_sequencer.md R274): an accepted command runs its handler, a rejected one is one
`RSP_FAILED` (spec/48_commands.md R332). -/
def accepted (k : Cmd) (s : State) (handler : Host.Outcome State Fault Refusal) : Host.Outcome State Fault Refusal :=
  match accept s.cfg k s.seq s.op.opKind with
  | .accept => handler
  | .reject cause => .next (reject cause (k.code s.cfg) s)

/-- `STATUS` (R330). -/
def execStatus (s : State) : Host.Outcome State Fault Refusal :=
  accepted .status s
    (if s.ses.profile = 0xFF then .next (emit (.rspModel 0xFF []) s)
     else withProfile s (fun p => .next (emit (.rspModel s.ses.profile p.name) s)))

/-- `READ` (R331). -/
def execRead (r : Request) (s : State) : Host.Outcome State Fault Refusal := accepted .read s (startOp s.cfg.commands.read r s)

/-- `WRITE` (R342). -/
def execWrite (r : Request) (s : State) : Host.Outcome State Fault Refusal :=
  accepted .write s (startOp s.cfg.commands.write r s)

/-- `ERASE` (R343). -/
def execErase (r : Request) (s : State) : Host.Outcome State Fault Refusal :=
  accepted .erase s (startOp s.cfg.commands.erase r s)

/-- `CANCEL` (R333). -/
def execCancel (s : State) : Host.Outcome State Fault Refusal := accepted .cancel s (.next (cancelOp s))

/-- `PAUSE` (R334). -/
def execPause (s : State) : Host.Outcome State Fault Refusal := accepted .pause s (onPause s)

/-- `RESUME_OP` (R335). -/
def execResumeOp (s : State) : Host.Outcome State Fault Refusal :=
  accepted .resumeOp s (.next (emit (.rspAck s.cfg.commands.resumeOp 0) { s with seq := .running }))

/-- `SET_RESUME` (R337). -/
def execSetResume (mode : Byte) (s : State) : Host.Outcome State Fault Refusal :=
  accepted .setResume s (.next (onSetResume mode s))

/-- `POWER_CHECK` (R338). -/
def execPowerCheck (s : State) : Host.Outcome State Fault Refusal := accepted .powerCheck s (.next (powerCheck s))

/-- `SELECT` (R339). -/
def execSelect (index : Byte) (s : State) : Host.Outcome State Fault Refusal := accepted .select s (.next (onSelect index s))

/-- `REDETECT` (R340). -/
def execRedetect (s : State) : Host.Outcome State Fault Refusal := accepted .redetect s (.next (onRedetect s))

/-- `EXIT` (R341). -/
def execExit (s : State) : Host.Outcome State Fault Refusal := accepted .exit s (.next (onExit s))

/-- `DATA` (R336). -/
def execData (unit : List Byte) (s : State) : Host.Outcome State Fault Refusal := accepted .data s (onData unit s)

end Sys2Proof.Machine
end

