-- ==== Sys2Proof/Machine/NandBus.lean ====
section
/-! DEFINITION. The nine NAND bus opcodes (spec/30_encoding.md R118, spec/42_bus_driver.md R182 to R197): the bus cycles of
each, and the die's answer. The memory transactions of Bus.lean are made of the same operations. -/

namespace Sys2Proof.Machine

/-- `OP_READ_SETUP` (R196). -/
def execOpReadSetup (addr : List Byte) (s : State) : Host.Outcome State Fault Refusal := .next (busReadSetup addr s)

/-- `OP_READ_CONFIRM` (R185). -/
def execOpReadConfirm (n : U16) (s : State) : Host.Outcome State Fault Refusal := .next (busReadConfirm n.toNat s).2

/-- `OP_PROG_SETUP` (R197, R186). -/
def execOpProgSetup (addr bytes : List Byte) (s : State) : Host.Outcome State Fault Refusal :=
  .next (busProgSetup addr bytes s)

/-- `OP_PROG_CONFIRM` (R186). -/
def execOpProgConfirm (s : State) : Host.Outcome State Fault Refusal := .next (busProgConfirm s).2

/-- `OP_ERASE_SETUP` (R187). -/
def execOpEraseSetup (addr : List Byte) (s : State) : Host.Outcome State Fault Refusal := .next (busEraseSetup addr s)

/-- `OP_ERASE_CONFIRM` (R187). -/
def execOpEraseConfirm (s : State) : Host.Outcome State Fault Refusal := .next (busEraseConfirm s).2

/-- `OP_READ_STATUS` (R193). -/
def execOpReadStatus (s : State) : Host.Outcome State Fault Refusal := .next (busReadStatus s).2

/-- `OP_READ_ID` (R194). -/
def execOpReadId (s : State) : Host.Outcome State Fault Refusal := .next (busReadId s).2

/-- `OP_RESET` (R191). -/
def execOpReset (s : State) : Host.Outcome State Fault Refusal := .next (busReset s).2

end Sys2Proof.Machine
end

