-- ==== Sys2Proof/Machine/Responses.lean ====
section
/-! DEFINITION. The ten response frames (spec/30_encoding.md R94, R104 to R111): the engine executes one by emitting it. -/

namespace Sys2Proof.Machine

/-- `RSP_ACK` (R104). -/
def execRspAck (cmd info : Byte) (s : State) : Host.Outcome State Fault Refusal := .next (emit (.rspAck cmd info) s)

/-- `RSP_MODEL` (R105). -/
def execRspModel (index : Byte) (name : List Byte) (s : State) : Host.Outcome State Fault Refusal :=
  .next (emit (.rspModel index name) s)

/-- `RSP_PROGRESS` (R106). -/
def execRspProgress (pct : Byte) (completed total : U32) (s : State) : Host.Outcome State Fault Refusal :=
  .next (emit (.rspProgress pct completed total) s)

/-- `RSP_COMPLETE` (R107). -/
def execRspComplete (kind : Byte) (units : U32) (s : State) : Host.Outcome State Fault Refusal :=
  .next (emit (.rspComplete kind units) s)

/-- `RSP_FAILED` (R108). -/
def execRspFailed (cause context : Byte) (s : State) : Host.Outcome State Fault Refusal :=
  .next (emit (.rspFailed cause context) s)

/-- `RSP_POWER` (R109). -/
def execRspPower (mv : U16) (low : Bool) (s : State) : Host.Outcome State Fault Refusal :=
  .next (emit (.rspPower mv low) s)

/-- `RSP_LIST_START` (R110). -/
def execRspListStart (n : Byte) (s : State) : Host.Outcome State Fault Refusal := .next (emit (.rspListStart n) s)

/-- `RSP_LIST_ENTRY` (R110). -/
def execRspListEntry (index : Byte) (name : List Byte) (s : State) : Host.Outcome State Fault Refusal :=
  .next (emit (.rspListEntry index name) s)

/-- `RSP_LIST_END` (R110). -/
def execRspListEnd (s : State) : Host.Outcome State Fault Refusal := .next (emit .rspListEnd s)

/-- `RSP_DATA` (R111). -/
def execRspData (unit : List Byte) (s : State) : Host.Outcome State Fault Refusal := .next (emit (.rspData unit) s)

end Sys2Proof.Machine
end

