-- ==== Sys2Proof/Machine/Units.lean ====
section
/-! DEFINITION. The three stream units (spec/30_encoding.md R113 to R115): a unit does what the `DATA` frame that carries it
makes the engine do (spec/46_sequencer.md R284, notes/assumptions/27.md). -/

namespace Sys2Proof.Machine

/-- `RAW`: exactly `U` bytes, passed through (spec/43_stream_codec.md R226). -/
def execUnitRaw (body : List Byte) (s : State) : Host.Outcome State Fault Refusal :=
  accepted .data s (onData (0x00 :: body) s)

/-- `RLE`: run tokens that total exactly `U` bytes (R226, R114). -/
def execUnitRle (tokens : List RunToken) (s : State) : Host.Outcome State Fault Refusal :=
  accepted .data s (onData (0x01 :: bytesOfTokens tokens) s)

/-- `BLANK`: `U` bytes of `0xFF` (R226). -/
def execUnitBlank (s : State) : Host.Outcome State Fault Refusal := accepted .data s (onData [0x02] s)

end Sys2Proof.Machine
end

