-- ==== Sys2Proof/Machine/Dispatch.lean ====
section
/-! DEFINITION. exec: one arm for each instruction. -/

namespace Sys2Proof.Machine

def exec (i : Instr) (s : State) : Host.Outcome State Fault Refusal :=
  match i with
  -- host commands (R93)
  | .status => Sys2Proof.Machine.execStatus s
  | .read r => Sys2Proof.Machine.execRead r s
  | .write r => Sys2Proof.Machine.execWrite r s
  | .erase r => Sys2Proof.Machine.execErase r s
  | .cancel => Sys2Proof.Machine.execCancel s
  | .pause => Sys2Proof.Machine.execPause s
  | .resumeOp => Sys2Proof.Machine.execResumeOp s
  | .setResume mode => Sys2Proof.Machine.execSetResume mode s
  | .powerCheck => Sys2Proof.Machine.execPowerCheck s
  | .select index => Sys2Proof.Machine.execSelect index s
  | .redetect => Sys2Proof.Machine.execRedetect s
  | .exit => Sys2Proof.Machine.execExit s
  | .data unit => Sys2Proof.Machine.execData unit s
  -- responses (R94)
  | .rspAck cmd info => Sys2Proof.Machine.execRspAck cmd info s
  | .rspModel index name => Sys2Proof.Machine.execRspModel index name s
  | .rspProgress pct completed total => Sys2Proof.Machine.execRspProgress pct completed total s
  | .rspComplete kind units => Sys2Proof.Machine.execRspComplete kind units s
  | .rspFailed cause context => Sys2Proof.Machine.execRspFailed cause context s
  | .rspPower mv low => Sys2Proof.Machine.execRspPower mv low s
  | .rspListStart n => Sys2Proof.Machine.execRspListStart n s
  | .rspListEntry index name => Sys2Proof.Machine.execRspListEntry index name s
  | .rspListEnd => Sys2Proof.Machine.execRspListEnd s
  | .rspData unit => Sys2Proof.Machine.execRspData unit s
  -- stream units (R113)
  | .unitRaw body => Sys2Proof.Machine.execUnitRaw body s
  | .unitRle tokens => Sys2Proof.Machine.execUnitRle tokens s
  | .unitBlank => Sys2Proof.Machine.execUnitBlank s
  -- NAND bus opcodes (R118)
  | .opReadSetup addr => Sys2Proof.Machine.execOpReadSetup addr s
  | .opReadConfirm n => Sys2Proof.Machine.execOpReadConfirm n s
  | .opProgSetup addr bytes => Sys2Proof.Machine.execOpProgSetup addr bytes s
  | .opProgConfirm => Sys2Proof.Machine.execOpProgConfirm s
  | .opEraseSetup addr => Sys2Proof.Machine.execOpEraseSetup addr s
  | .opEraseConfirm => Sys2Proof.Machine.execOpEraseConfirm s
  | .opReadStatus => Sys2Proof.Machine.execOpReadStatus s
  | .opReadId => Sys2Proof.Machine.execOpReadId s
  | .opReset => Sys2Proof.Machine.execOpReset s

end Sys2Proof.Machine
end

