-- ==== Sys2Proof/Machine/FrameCodec.lean ====
section
/-! DEFINITION. The byte-serial frame decoder (spec/40_frame_codec.md R144, R146 to R153). The encoder is `encodeFrame` of
Decode.lean (R142). -/

namespace Sys2Proof.Machine

/-- What one decoder step returns (R144). -/
inductive RxResult where
  | none
  | frame (cmd : Byte) (payload : List Byte)
  | errChecksum
  | errLength
deriving DecidableEq, Repr

/-- The decoder step once the fourth `LEN` byte is in the body (R146 `LEN3`, R149). -/
def rxLength (c : Config) (d : Decoder) (body : List Byte) : RxResult × Decoder :=
  let len := unLe (slice body 1 5)
  if c.maxPayload < len then
    (.errLength, { d with rxState := .hunt0, rxBody := body, rxLen := BitVec.ofNat 32 len })
  else
    (.none, { rxState := if len = 0 then .ck0 else .payload, rxBody := body, rxLen := BitVec.ofNat 32 len, rxCk := 0 })

/-- The decoder step once the last checksum byte has arrived (R146 `CK3`, R147, R148). -/
def rxFinish (c : Config) (d : Decoder) (ck : U32) : RxResult × Decoder :=
  (if ck = checksum32 c d.rxBody then .frame (d.rxBody.getD 0 0) (slice d.rxBody 5 (5 + d.rxLen.toNat)) else .errChecksum,
   { d with rxState := .hunt0, rxCk := ck })

/-- `rx_byte(b)` (spec/40_frame_codec.md R146). -/
def rxByte (c : Config) (d : Decoder) (b : Byte) : RxResult × Decoder :=
  match d.rxState with
  | .hunt0 => (.none, if b = c.magic0 then { d with rxState := .hunt1 } else d)
  | .hunt1 =>
    (.none,
      if b = c.magic1 then { d with rxState := .cmd, rxBody := [] }
      else if b = c.magic0 then d
      else { d with rxState := .hunt0 })
  | .cmd => (.none, { d with rxState := .len0, rxBody := [b] })
  | .len0 => (.none, { d with rxState := .len1, rxBody := d.rxBody ++ [b] })
  | .len1 => (.none, { d with rxState := .len2, rxBody := d.rxBody ++ [b] })
  | .len2 => (.none, { d with rxState := .len3, rxBody := d.rxBody ++ [b] })
  | .len3 => rxLength c d (d.rxBody ++ [b])
  | .payload =>
    (.none,
      { d with
        rxBody := d.rxBody ++ [b]
        rxState := if (d.rxBody ++ [b]).length = 5 + d.rxLen.toNat then .ck0 else .payload })
  | .ck0 => (.none, { d with rxState := .ck1, rxCk := BitVec.ofNat 32 b.toNat })
  | .ck1 => (.none, { d with rxState := .ck2, rxCk := d.rxCk + BitVec.ofNat 32 (256 * b.toNat) })
  | .ck2 => (.none, { d with rxState := .ck3, rxCk := d.rxCk + BitVec.ofNat 32 (65536 * b.toNat) })
  | .ck3 => rxFinish c d (d.rxCk + BitVec.ofNat 32 (16777216 * b.toNat))

/-- What the decoder returns over a sequence of bytes, and where it stands then (R140: partial input accumulates). -/
def rxBytes (c : Config) : Decoder → List Byte → List RxResult × Decoder
  | d, [] => ([], d)
  | d, b :: r => ((rxByte c d b).1 :: (rxBytes c (rxByte c d b).2 r).1, (rxBytes c (rxByte c d b).2 r).2)

end Sys2Proof.Machine
end

