-- ==== Sys2Proof/Machine/Engine.lean ====
section
/-! DEFINITION. The engine's steps (spec/46_sequencer.md R272 to R274, R282, R286) and the turns of the schedule
(spec/60_exceptions.md R373, R380, spec/70_reset_and_hazards.md R400). -/

namespace Sys2Proof.Machine

/-- `dispatch(cmd, p)` (R274): the code and length checks are the decoder's, the state check and the handler are the
instruction's. -/
def dispatchFrame (cmd : Byte) (payload : List Byte) (s : State) : Host.Outcome State Fault Refusal :=
  match decodeCommand s.cfg cmd payload with
  | .ok i => exec i s
  | .error (.badLength _) => .next (reject .badLength cmd s)
  | .error _ => .next (reject .unknownCommand cmd s)

/-- What a `Service` step does with the decoder's answer (R273). -/
def serviceResult (r : RxResult) (s : State) : Host.Outcome State Fault Refusal :=
  match r with
  | .none => .next s
  | .frame cmd payload => dispatchFrame cmd payload s
  | .errChecksum => .next (onFrameError .frameChecksum s)
  | .errLength => .next (onFrameError .frameLength s)

/-- The `Service` step (R273) on the byte `b` at the front of `RXQ`, with `rest` behind it. -/
def service (b : Byte) (rest : List Byte) (s : State) : Host.Outcome State Fault Refusal :=
  serviceResult (rxByte s.cfg s.dec b).1 { s with rxq := rest, dec := (rxByte s.cfg s.dec b).2 }

/-- One turn of the engine: `Service` while bytes wait, else the unit step that is enabled (R272), else the engine waits and
nothing changes (spec/60_exceptions.md R378). -/
def engineStep (s : State) : Host.Outcome State Fault Refusal :=
  match s.rxq with
  | b :: rest => service b rest s
  | [] =>
    if s.seq = .running ∧ s.op.opKind = s.cfg.commands.read then withProfile s (fun p => .next (readUnit p s))
    else if s.seq = .running ∧ s.op.opKind = s.cfg.commands.erase then withProfile s (fun p => .next (eraseUnit p s))
    else .next s

/-- Power fails inside an engine step and comes back (R400): the step's durable effects up to the failure stand, the
transaction in flight is torn, everything volatile is reset. DESIGN CHOICE (notes/assumptions/13.md): frames the cut step had
emitted "may or may not have reached the host"; here `TX` and the bus trace go from before the step to empty in one
transition, so no state shows such a frame or cycle. -/
def powerOnDuring (effects : Nat) (inFlight : Bool) (s : State) : Host.Outcome State Fault Refusal :=
  match engineStep { s with env := { s.env with power := .failing effects inFlight } } with
  | .next t => .next (powerOn t)
  | .fault f => .fault f
  | .refused r => .refused r

/-- An `issue` turn: one instruction of the table by itself. -/
def issue (sp : Space) (bytes : List Byte) (s : State) : Host.Outcome State Fault Refusal :=
  match decode s.cfg sp bytes with
  | .ok i => exec i s
  | .error e => .refused (.notAnInstruction e)

/-- One turn. -/
def takeTurn (t : Turn) (s : State) : Host.Outcome State Fault Refusal :=
  match t with
  | .engine => engineStep s
  | .hostSend bytes => hostSend bytes s
  | .powerSample mv => .next (powerSample mv s)
  | .inactivityTimeout => .next (inactivityTimeout s)
  | .powerOn => .next (powerOn s)
  | .powerOnDuring effects inFlight => powerOnDuring effects inFlight s
  | .issue sp bytes => issue sp bytes s

/-- Who moves next: the head of the schedule, or the engine when it is empty. -/
def nextTurn (s : State) : Turn :=
  match s.env.schedule with
  | [] => .engine
  | t :: _ => t

/-- The state with its next turn taken off the schedule. -/
def popTurn (s : State) : State := { s with env := { s.env with schedule := s.env.schedule.tail } }

/-! ## Placing an instruction where the machine fetches it -/

/-- A whole frame one byte short: the decoder has taken all but its last checksum byte, which waits in `RXQ`. -/
def placeFrame (frame : List Byte) (s : State) : State :=
  { s with
    rxq := frame.drop (frame.length - 1)
    dec :=
      { rxState := .ck3
        rxBody := slice frame 2 (frame.length - 4)
        rxLen := BitVec.ofNat 32 (unLe (slice frame 3 7))
        rxCk := BitVec.ofNat 32 (unLe (slice frame (frame.length - 4) (frame.length - 1))) }
    env := { s.env with schedule := [] } }

/-- Places the instruction encoded by `bytes` in space `sp`: a host command in the receive path, any other instruction as an
`issue` turn. -/
def placeInstr (sp : Space) (bytes : List Byte) (s : State) : State :=
  match sp with
  | .command => placeFrame bytes s
  | .response | .unit | .bus => { s with env := { s.env with schedule := .issue sp bytes :: s.env.schedule } }

end Sys2Proof.Machine
end

