-- ==== Sys2Proof/Machine/Step.lean ====
section
/-! DEFINITION. step: a configuration outside spec/00_scope.md R7 or spec/41_chip_profile.md R170 is refused; else the next turn is taken. -/

namespace Sys2Proof.Machine

/-- One step of the machine. -/
def step (s : State) : Host.Outcome State Fault Refusal :=
  if s.cfg.ok then takeTurn (nextTurn s) (popTurn s) else .refused .invalidConfig

/-- The state with the table word `w` of `nbits` bits placed where `step` fetches its next instruction
(notes/assumptions/15.md). -/
def State.withFetchWord (s : State) (nbits w : Nat) : State :=
  placeInstr (layoutTableWord s.cfg nbits w).1 (layoutTableWord s.cfg nbits w).2 s

end Sys2Proof.Machine
end

