-- ==== Sys2Proof/Safety.lean ====
section
/-! DEFINITION. What counts as a sound state and a legal move of the sequencer, in the terms statements use. -/

namespace Sys2Proof.Machine

/-- `PROFILE` is `0xFF` or names a table entry (spec/10_state.md R27). -/
def ProfileOk (s : State) : Prop := s.ses.profile = 0xFF ∨ s.ses.profile.toNat < s.cfg.profileTable.length

/-- The invariant of spec/10_state.md R21 on a Read or Write over the held profile `p`: the cursor is the next unit of the
range, the range lies in the array. -/
def PageOpOk (p : Profile) (s : State) : Prop :=
  (s.op.opKind = s.cfg.commands.read ∨ s.op.opKind = s.cfg.commands.write) ∧
    cursorRow p s = s.op.opStart.toNat + s.op.opDone.toNat ∧ s.op.curPage.toNat < p.pagesPerBlock ∧
    s.op.opStart.toNat + s.op.opTotal.toNat ≤ p.rows

/-- The invariant of R21 on an Erase. -/
def EraseOpOk (p : Profile) (s : State) : Prop :=
  s.op.opKind = s.cfg.commands.erase ∧ s.op.curBlock.toNat = s.op.opStart.toNat + s.op.opDone.toNat ∧ s.op.curPage = 0 ∧
    s.op.opStart.toNat + s.op.opTotal.toNat ≤ p.blockCount

/-- The invariant of R21: while an operation is active a profile is held, the cursor is where the operation stands, and
units remain to be done. -/
def OperationOk (s : State) : Prop :=
  active s.seq = true →
    ∃ p, heldProfile s = some p ∧ (PageOpOk p s ∨ EraseOpOk p s) ∧ s.op.opDone.toNat < s.op.opTotal.toNat

/-- The decoder registers agree with the place in the frame (spec/10_state.md R23, spec/40_frame_codec.md R146); `RX_BODY`
is at most `5 + MAX_PAYLOAD` bytes long. -/
def DecoderOk (c : Config) (d : Decoder) : Prop :=
  match d.rxState with
  | .hunt0 | .hunt1 => True
  | .cmd => d.rxBody.length = 0
  | .len0 => d.rxBody.length = 1
  | .len1 => d.rxBody.length = 2
  | .len2 => d.rxBody.length = 3
  | .len3 => d.rxBody.length = 4
  | .payload => 5 ≤ d.rxBody.length ∧ d.rxBody.length < 5 + d.rxLen.toNat ∧ d.rxLen.toNat ≤ c.maxPayload
  | .ck0 | .ck1 | .ck2 | .ck3 => d.rxBody.length = 5 + d.rxLen.toNat ∧ d.rxLen.toNat ≤ c.maxPayload

/-- A sound state between steps. The command codes tell the commands apart, as those of R93 do: `OP_KIND` holds one. -/
def Inv (s : State) : Prop :=
  s.cfg.ok = true ∧ s.cfg.commandsDistinct = true ∧ s.env.power = .on ∧ Memory.wf s.die.arr = true ∧ ProfileOk s ∧ OperationOk s ∧ DecoderOk s.cfg s.dec

/-- The changes of `SEQ` that one step can make: the closure, within a step, of the transitions of spec/46_sequencer.md
R270 (an operation may fail or complete in the step that starts it, R279). -/
def SeqMove (q q' : Seq) : Prop :=
  q' = q ∨ q' = .idle ∨
    (idleLike q = true ∧ (q' = .running ∨ q' = .failed ∨ q' = .completed)) ∨
    (q = .running ∧ (q' = .completed ∨ q' = .paused ∨ q' = .cancelled ∨ q' = .failed)) ∨
    (q = .paused ∧ (q' = .running ∨ q' = .cancelled ∨ q' = .failed))

/-- From `s` to `t` only the bus side of the machine moved: the array, the die's status and latch, the bus trace (which
only grows) and the environment's answers. Every register, the checkpoint, `RXQ` and `TX` stay. -/
structure BusOnly (s t : State) : Prop where
  registers : t = { s with die := t.die, trace := t.trace, env := t.env }
  dieFixed : t.die = { s.die with arr := t.die.arr, status := t.die.status, latch := t.die.latch }
  schedule : t.env.schedule = s.env.schedule
  traceGrows : ∃ cs, t.trace = s.trace ++ cs

/-- The cells of rows `row` to `row + n - 1`, of `u` bytes each. -/
def InRows (row n u a : Nat) : Prop := ∃ r i, row ≤ r ∧ r < row + n ∧ i < u ∧ a = cellAddr r i

/-- Every cell outside `n` rows of `u` bytes from `row` on reads as before. -/
def SameOutside (row n u : Nat) (m m' : Memory) : Prop := ∀ a, ¬InRows row n u a → Memory.read m' a = Memory.read m a

/-- The held profile is `p`, the die has its geometry, and `row` is a row of the array (spec/20_memory.md R61, R66). -/
structure RowOk (p : Profile) (row : Nat) (s : State) : Prop where
  held : heldProfile s = some p
  agrees : dieAgrees s = true
  inRange : row < p.rows

/-- The cycles of `wait_ready(t)` with the die busy for `k` samples (spec/42_bus_driver.md R190). -/
def waitTrace (k t : Nat) : List BusCycle :=
  if k < t then List.replicate k (.rb false) ++ [.rb true] else List.replicate t (.rb false)

/-! ## Frames and registers, as the rules of the spec write them -/

/-- `RSP_ACK` (spec/30_encoding.md R104) as bytes. -/
def ackFrame (c : Config) (cmd info : Byte) : List Byte := encodeFrame c c.responses.ack [cmd, info]

/-- `RSP_FAILED` (R108) as bytes. -/
def failedFrame (c : Config) (cause context : Byte) : List Byte := encodeFrame c c.responses.failed [cause, context]

/-- `RSP_PROGRESS` (R106) as bytes. -/
def progressFrame (c : Config) (completed total : U32) : List Byte :=
  encodeFrame c c.responses.progress
    (BitVec.ofNat 8 (100 * completed.toNat / total.toNat) :: (leBytes 4 completed.toNat ++ leBytes 4 total.toNat))

/-- `RSP_COMPLETE` (R107) as bytes. -/
def completeFrame (c : Config) (kind : Byte) (units : U32) : List Byte :=
  encodeFrame c c.responses.complete (kind :: leBytes 4 units.toNat)

/-- The listing of spec/41_chip_profile.md R173 as bytes. -/
def listingFrames (c : Config) : List Byte :=
  encodeFrame c c.responses.listStart [BitVec.ofNat 8 c.profileTable.length] ++
    (c.profileTable.zipIdx.map (fun e => encodeFrame c c.responses.listEntry (BitVec.ofNat 8 e.2 :: e.1.name))).flatten ++
    encodeFrame c c.responses.listEnd []

/-- The operation an instruction asks for, with its kind byte: the command code (spec/10_state.md R21 `OP_KIND`). -/
def requestOf (c : Config) : Instr → Option (Byte × Request)
  | .read r => some (c.commands.read, r)
  | .write r => some (c.commands.write, r)
  | .erase r => some (c.commands.erase, r)
  | _ => none

/-- The `DATA` payload an instruction brings: its own, or the stream unit it is (spec/30_encoding.md R103, R113). -/
def unitPayload : Instr → Option (List Byte)
  | .data payload => some payload
  | .unitRaw body => some (0x00 :: body)
  | .unitRle tokens => some (0x01 :: bytesOfTokens tokens)
  | .unitBlank => some [0x02]
  | _ => none

/-- The operation registers at position `u` of the range (`set_cursor`, spec/46_sequencer.md R279). -/
def cursorAt (c : Config) (p : Profile) (u : Nat) (o : OpRegs) : OpRegs :=
  { o with
    curBlock := BitVec.ofNat 32 (if o.opKind = c.commands.erase then u else u / p.pagesPerBlock)
    curPage := BitVec.ofNat 16 (if o.opKind = c.commands.erase then 0 else u % p.pagesPerBlock) }

/-- The operation registers of an accepted request (R279). -/
def freshOp (c : Config) (p : Profile) (kind : Byte) (r : Request) (start total : Nat) : OpRegs :=
  cursorAt c p start
    { cause := 0, opKind := kind, optCompress := r.flags.getLsbD 0, optSkipBlank := r.flags.getLsbD 1
      optVerify := r.flags.getLsbD 2, opStart := BitVec.ofNat 32 start, opTotal := BitVec.ofNat 32 total, opDone := 0
      curBlock := 0, curPage := 0, bytesDone := 0, lastHash := 0, frameErrCnt := 0 }

/-- The operation registers of a request resumed with `done0` units done (R279, `info = 1`). -/
def resumedOp (c : Config) (p : Profile) (kind : Byte) (r : Request) (start total done0 : Nat) (hash : U32) : OpRegs :=
  cursorAt c p (start + done0)
    { freshOp c p kind r start total with
      opDone := BitVec.ofNat 32 done0
      lastHash := hash
      bytesDone := if kind = c.commands.erase then 0 else BitVec.ofNat 64 (done0 * p.unitSize) }

/-- The unit just completed is the last of its block: every Erase unit is, a page is when the next one opens a block
(spec/45_checkpoint.md R254). -/
def blockEnds (c : Config) (p : Profile) (o : OpRegs) : Bool :=
  decide (o.opKind = c.commands.erase) || decide (o.curPage.toNat + 1 = p.pagesPerBlock)

/-- The operation registers after a completed unit (spec/46_sequencer.md R283, spec/10_state.md R25). -/
def countedOp (c : Config) (p : Profile) (o : OpRegs) : OpRegs :=
  { o with
    opDone := o.opDone + 1
    curBlock := if blockEnds c p o then o.curBlock + 1 else o.curBlock
    curPage := if o.opKind = c.commands.erase then o.curPage else if blockEnds c p o then 0 else o.curPage + 1 }

/-- `SEQ` after a completed unit (R283). -/
def seqAfterUnit (q : Seq) (o : OpRegs) : Seq := if o.opDone + 1 = o.opTotal then .completed else q

/-- The frames `finish_unit` emits (R283). -/
def unitFrames (c : Config) (o : OpRegs) : List Byte :=
  progressFrame c (o.opDone + 1) o.opTotal ++
    (if o.opDone + 1 = o.opTotal then completeFrame c o.opKind (o.opDone + 1) else [])

/-- The checkpoint after a completed unit with hash `h` (R283, R254, R258): cleared at the end of the range, naming the
completed unit at the end of a block, as before inside a block. -/
def CheckpointAfterUnit (p : Profile) (s : State) (h : U32) (cp : Checkpoint) : Prop :=
  if s.op.opDone + 1 = s.op.opTotal then cp.valid = false
  else if blockEnds s.cfg p s.op then
    cp =
      { valid := true, kind := s.op.opKind, block := s.op.curBlock, page := BitVec.ofNat 16 (p.pagesPerBlock - 1)
        hash := h, token := s.ses.sessionToken }
  else cp = s.cp

end Sys2Proof.Machine
end

