-- ==== Sys2Proof/Certificates/Slice0/Obligations.lean ====
section
/-! DEFINITION. The statements for the provers. Each docstring names the rules it formalises. -/

open Sys2Proof Sys2Proof.Machine

/-! ## Encodings -/

/-- Words written out from the tables of spec/30_encoding.md (R93, R94, R113, R118), one or more from each of the four
encoding spaces. That the byte string of a bus instruction is its opcode followed by its address cycles is the model's choice
(notes/assumptions/25.md). -/
def Obligations.WrittenOutWordsDecode : Prop :=
  decode Config.default .command [0xA5, 0x5A, 0x08, 0x01, 0, 0, 0, 0x01, 0x0A, 0, 0, 0] = .ok (.setResume 0x01) ∧
    decode Config.default .command
        [0xA5, 0x5A, 0x02, 0x0B, 0, 0, 0, 0x03, 0x01, 0, 0, 0, 0x01, 0, 0x03, 0, 0, 0, 0x15, 0, 0, 0] =
      .ok (.read { flags := 0x03, startBlock := 1, startPage := 1, count := 3 }) ∧
    decode Config.default .response [0xA5, 0x5A, 0x85, 0x03, 0, 0, 0, 0xF0, 0x0A, 0x01, 0x83, 0x01, 0, 0] =
      .ok (.rspPower 2800 true) ∧
    decode Config.default .unit [0x01, 0x09, 0x02, 0x08, 0x02] = .ok (.unitRle [⟨0x09, 0x02⟩, ⟨0x08, 0x02⟩]) ∧
    decode Config.default .bus [0x60, 0x06, 0x00, 0x00] = .ok (.opEraseSetup [0x06, 0x00, 0x00])

/-- Decoding the encoding of a well-formed instruction gives it back, for every instruction and operand (R90, R91, R93,
R94, R100 to R114, R118), wherever the code maps tell their rows apart. The operand bytes of the bus instructions, above all
the u16 data-read count after `OP_READ_CONFIRM`, are the model's choice (notes/assumptions/25.md); so is taking distinct codes
as a premise and not as a constraint (notes/assumptions/5.md). -/
def Obligations.DecodeOfEncodeIsTheInstruction : Prop :=
  ∀ (c : Config) (i : Instr), c.codesDistinct = true → i.wf c = true → decode c i.space (encode c i) = .ok i

/-- What decodes is the encoding of what it decodes to: no two byte sequences of one space are one instruction, and every
decoded instruction is well formed. The byte string of a bus instruction is the model's choice (notes/assumptions/25.md). -/
def Obligations.EncodeOfDecodeIsTheWord : Prop :=
  ∀ (c : Config) (sp : Space) (bytes : List Byte) (i : Instr),
    decode c sp bytes = .ok i → i.space = sp ∧ i.wf c = true ∧ encode c i = bytes

/-- R154: the bytes of `encode(cmd, payload)`, fed one by one to a decoder in `HUNT0`, give nothing but at the last byte the
frame, and leave the decoder in `HUNT0`. -/
def Obligations.FrameRoundTripByteByByte : Prop :=
  ∀ (c : Config) (d : Decoder) (cmd : Byte) (payload : List Byte),
    d.rxState = .hunt0 → payload.length ≤ c.maxPayload → payload.length < 2 ^ 32 →
      (rxBytes c d (encodeFrame c cmd payload)).1 = List.replicate (10 + payload.length) .none ++ [.frame cmd payload] ∧
        (rxBytes c d (encodeFrame c cmd payload)).2.rxState = .hunt0

/-- R155: a frame with its `CMD` byte, one payload byte or one `CHECKSUM` byte changed gives `FrameError(Checksum)` at its last
byte and nothing before; under another checksum than R141's, a changed `CHECKSUM` byte still does. -/
def Obligations.ChangedByteFailsTheChecksum : Prop :=
  ∀ (c : Config) (d : Decoder) (cmd : Byte) (payload : List Byte) (j : Nat) (b : Byte),
    d.rxState = .hunt0 → payload.length ≤ c.maxPayload → payload.length < 2 ^ 32 →
      (c.checksum = .byteSum ∧ (j = 2 ∨ 7 ≤ j) ∨ 7 + payload.length ≤ j) → j < 11 + payload.length → (encodeFrame c cmd payload)[j]? ≠ some b →
        (rxBytes c d ((encodeFrame c cmd payload).set j b)).1 =
            List.replicate (10 + payload.length) .none ++ [.errChecksum] ∧
          (rxBytes c d ((encodeFrame c cmd payload).set j b)).2.rxState = .hunt0

/-- R149, R150: a `LEN` above `MAX_PAYLOAD` is an error at its fourth byte, and the decoder hunts from the next byte; bytes
without a marker are dropped in the hunt, with no error and no other register written. -/
def Obligations.BadLengthsAndNoiseAreDropped : Prop :=
  ∀ (c : Config) (d : Decoder),
    d.rxState = .hunt0 →
      (∀ cmd l0 l1 l2 l3 : Byte,
          c.maxPayload < l0.toNat + 256 * l1.toNat + 65536 * l2.toNat + 16777216 * l3.toNat →
            (rxBytes c d [c.magic0, c.magic1, cmd, l0, l1, l2, l3]).1 = List.replicate 6 .none ++ [.errLength] ∧
              (rxBytes c d [c.magic0, c.magic1, cmd, l0, l1, l2, l3]).2.rxState = .hunt0) ∧
        ∀ bytes : List Byte,
          (∀ i, ¬(bytes[i]? = some c.magic0 ∧ bytes[i + 1]? = some c.magic1)) →
            (rxBytes c d bytes).1 = List.replicate bytes.length .none ∧
              ((rxBytes c d bytes).2 = d ∨ (rxBytes c d bytes).2 = { d with rxState := .hunt1 })

/-! ## Stream units and the chunk hash -/

/-- R227: decoding the encoding of a unit gives the unit back, for all four option pairs; encoding what a payload decodes to need
not give the payload back. -/
def Obligations.StreamUnitRoundTrip : Prop :=
  (∀ (maxRun u : Nat) (x : List Byte) (compress skipBlank : Bool),
      1 ≤ maxRun → maxRun ≤ 255 → 1 ≤ u → x.length = u →
        decodeUnit u (encodeUnit maxRun x compress skipBlank) = some x) ∧
    ∃ (maxRun u : Nat) (p x : List Byte) (compress skipBlank : Bool),
      1 ≤ maxRun ∧ maxRun ≤ 255 ∧ decodeUnit u p = some x ∧ encodeUnit maxRun x compress skipBlank ≠ p

/-- R226, R113: exactly the three forms decode, each to the `U` bytes the table of R113 gives. -/
def Obligations.LegalStreamUnits : Prop :=
  ∀ (u : Nat) (p x : List Byte),
    decodeUnit u p = some x ↔
      (p = 0x00 :: x ∧ x.length = u) ∨
        (p = [0x02] ∧ x = List.replicate u 0xFF) ∨
        ∃ ts : List RunToken,
          ts ≠ [] ∧ p = 0x01 :: bytesOfTokens ts ∧ (∀ t ∈ ts, t.count ≠ 0) ∧
            x = (ts.map (fun t => List.replicate t.count.toNat t.value)).flatten ∧ x.length = u

/-- R241: `HASH` from `HASH_INIT`, each byte by "multiply by 33, then XOR", and two chunks of equal length that differ in
exactly one byte hash differently. It is the default of the parameter `HASH`. -/
def Obligations.HashTellsOneChangedByte : Prop :=
  Config.default.hash = .mulXor ∧ Config.default.hashInit = 0x00001505 ∧ ∀ (c : Config), c.hash = .mulXor →
    chunkHash c [] = c.hashInit ∧
      (∀ (x : List Byte) (b : Byte), chunkHash c (x ++ [b]) = (chunkHash c x * 33) ^^^ BitVec.setWidth 32 b) ∧
      ∀ (pre post : List Byte) (b b' : Byte), b ≠ b' → chunkHash c (pre ++ b :: post) ≠ chunkHash c (pre ++ b' :: post)

/-! ## The bus and the array -/

/-- R73: programming the same data again and erasing again leave the array as it is. The canonical form is the model's
(notes/assumptions/6.md). -/
def Obligations.ProgramAndEraseAreIdempotent : Prop :=
  ∀ (m : Memory) (row n u : Nat) (data : List Byte),
    Memory.wf m = true → u ≤ 65536 →
      programRow (programRow m row data) row data = programRow m row data ∧
        eraseRows (eraseRows m row n u) row n u = eraseRows m row n u

/-- R199: the transaction is tried until the first attempt that does not time out, `k + 1` times at most; if all time out,
the answer is `Timeout`. -/
def Obligations.OnlyTimeoutsAreRetried : Prop :=
  ∀ (α : Type) (txn : State → BusResult α × State) (k : Nat) (s : State),
    (∀ j, j ≤ k → (∀ i, i < j → (txn ((fun t => (txn t).2)^[i] s)).1 = .timeout) →
        (txn ((fun t => (txn t).2)^[j] s)).1 ≠ .timeout →
          withBusRetry txn k s = txn ((fun t => (txn t).2)^[j] s)) ∧
      ((∀ i, i ≤ k → (txn ((fun t => (txn t).2)^[i] s)).1 = .timeout) →
        withBusRetry txn k s = (.timeout, (fun t => (txn t).2)^[k + 1] s))

/-- R182, R183, R196, R197, R187: the three setup opcodes put their cycles on the bus, latch, and touch nothing else. That
the die latches is the model's choice (notes/assumptions/14.md). -/
def Obligations.SetupOpcodesLatch : Prop :=
  ∀ (s : State) (addr bytes : List Byte),
    exec (.opReadSetup addr) s =
        .next
          { s with
            die := { s.die with latch := .read addr }, trace := s.trace ++ .cmd s.cfg.opReadSetup :: addr.map .addr } ∧
      exec (.opProgSetup addr bytes) s =
        .next
          { s with
            die := { s.die with latch := .prog addr bytes }
            trace := s.trace ++ .cmd s.cfg.opProgSetup :: (addr.map .addr ++ bytes.map .dataWr) } ∧
      exec (.opEraseSetup addr) s =
        .next
          { s with
            die := { s.die with latch := .erase addr }, trace := s.trace ++ .cmd s.cfg.opEraseSetup :: addr.map .addr }

/-- R185, R67: a read confirm after the page's setup brings the row's bytes, or times out. The latch is the model's choice
(notes/assumptions/14.md). -/
def Obligations.ReadConfirmBringsTheRow : Prop :=
  ∀ (s : State) (p : Profile) (row : Nat) (n : U16),
    s.cfg.ok = true → RowOk p row s → n.toNat ≤ p.unitSize → s.die.latch = .read (addrBytes s.cfg 0 row) →
      exec (.opReadConfirm n) s =
        .next
          { s with
            env := (draw s).2.env
            die := { s.die with latch := .idle }
            trace := s.trace ++ [.cmd s.cfg.opReadConfirm] ++ waitTrace (draw s).1 s.cfg.readyTimeoutRead ++
              (if (draw s).1 < s.cfg.readyTimeoutRead then
                (List.range n.toNat).map (fun i => .dataRd (cellByte s.die.arr (cellAddr row i)))
              else []) }

/-- R186, R68, R70: a program confirm after the page's setup: passed, the row is ANDed; failed or timed out, only that row
may have moved. The latch is the model's choice (notes/assumptions/14.md). -/
def Obligations.ProgConfirmProgramsTheRow : Prop :=
  ∀ (s : State) (p : Profile) (row : Nat) (bytes : List Byte),
    s.cfg.ok = true → RowOk p row s → bytes.length = p.unitSize → s.env.power = .on →
      s.die.latch = .prog (addrBytes s.cfg 0 row) bytes →
        ∃ t,
          exec .opProgConfirm s = .next t ∧ BusOnly s t ∧ t.die.latch = .idle ∧
            t.trace = s.trace ++ [.cmd s.cfg.opProgConfirm] ++ waitTrace (draw s).1 s.cfg.readyTimeoutProg ∧
            SameOutside row 1 p.unitSize s.die.arr t.die.arr ∧
            ((draw s).1 < s.cfg.readyTimeoutProg →
              t.die.status.getLsbD 0 = decide ((draw (draw s).2).1 % 2 = 1) ∧ t.die.status.getLsbD 6 = true ∧
                ((draw (draw s).2).1 % 2 = 0 →
                  ∀ i b, bytes[i]? = some b →
                    cellByte t.die.arr (cellAddr row i) = cellByte s.die.arr (cellAddr row i) &&& b))

/-- R187, R69, R70: an erase confirm after the block's setup: passed, the block reads `0xFF`; failed or timed out, only that
block may have moved. The latch is the model's choice (notes/assumptions/14.md). -/
def Obligations.EraseConfirmErasesTheBlock : Prop :=
  ∀ (s : State) (p : Profile) (block : Nat),
    s.cfg.ok = true → RowOk p (block * p.pagesPerBlock) s → s.env.power = .on →
      s.die.latch = .erase (rowBytes s.cfg (block * p.pagesPerBlock)) →
        ∃ t,
          exec .opEraseConfirm s = .next t ∧ BusOnly s t ∧ t.die.latch = .idle ∧
            t.trace = s.trace ++ [.cmd s.cfg.opEraseConfirm] ++ waitTrace (draw s).1 s.cfg.readyTimeoutErase ∧
            SameOutside (block * p.pagesPerBlock) p.pagesPerBlock p.unitSize s.die.arr t.die.arr ∧
            ((draw s).1 < s.cfg.readyTimeoutErase →
              t.die.status.getLsbD 0 = decide ((draw (draw s).2).1 % 2 = 1) ∧ t.die.status.getLsbD 6 = true ∧
                ((draw (draw s).2).1 % 2 = 0 →
                  ∀ g i, g < p.pagesPerBlock → i < p.unitSize →
                    cellByte t.die.arr (cellAddr (block * p.pagesPerBlock + g) i) = 0xFF))

/-- R193, R194, R191, R72: the status read, the identifier read and the die reset: their cycles, and no cell of the array.
That they empty the latch is the model's choice (notes/assumptions/14.md). -/
def Obligations.StatusIdentifierAndReset : Prop :=
  ∀ (s : State),
    exec .opReadStatus s =
        .next
          { s with
            die := { s.die with latch := .idle }, trace := s.trace ++ [.cmd s.cfg.opReadStatus, .dataRd s.die.status] } ∧
      (s.cfg.idLen ≤ s.die.nandId.length →
        exec .opReadId s =
          .next
            { s with
              die := { s.die with latch := .idle }
              trace := s.trace ++ .cmd s.cfg.opReadId :: .addr 0x00 :: (s.die.nandId.take s.cfg.idLen).map .dataRd }) ∧
      exec .opReset s =
        .next
          { s with
            env := (draw s).2.env
            die := { s.die with latch := .idle }
            trace := s.trace ++ [.cmd s.cfg.opReset] ++ waitTrace (draw s).1 s.cfg.readyTimeoutReset }

/-- R181, R60: a bus opcode completes in every state, whatever is latched, and moves only the bus side of the machine. That a
bus opcode can be issued by itself is the model's choice (notes/assumptions/14.md). -/
def Obligations.BusOpcodesMoveOnlyTheBusSide : Prop :=
  ∀ (i : Instr) (s : State), i.space = .bus → ∃ t, exec i s = .next t ∧ BusOnly s t

/-- R201: trial read `i` is the `i`-th `ID_LEN` bytes drawn after the reference read. The first `k` trial reads equal the
reference read, the next one, if there is one, does not, and the timing registers hold the `k`-th candidate, the safe setting
for `k = 0`; the bus carries the reference read and the trials up to the failing one, and nothing else is touched. In every
state, nothing outside timing, trace, latch and answers moves. The latch is the model's choice (notes/assumptions/14.md), and
so is that a trial read is drawn (notes/assumptions/18.md). -/
def Obligations.AutotuneKeepsATrialledSetting : Prop :=
  ∀ (s : State) (n : Nat) (ref : List Byte) (trial : Nat → List Byte),
    n = s.cfg.autotuneCandidates.length → ref = s.die.nandId.take s.cfg.idLen →
      (∀ i, trial i = (drawBytes s.cfg.idLen ((fun t => (drawBytes s.cfg.idLen t).2)^[i] s)).1) →
        BusOnly { s with ses := (autotune s).ses } (autotune s) ∧ (autotune s).die.arr = s.die.arr ∧
          (s.cfg.idLen ≤ s.die.nandId.length →
            ∃ k, k ≤ n ∧ (∀ i, i < k → trial i = ref) ∧ (k < n → trial k ≠ ref) ∧
              autotune s =
                { s with
                  ses :=
                    { s.ses with
                      timing := if k = 0 then s.cfg.timingSafe
                        else (s.cfg.autotuneCandidates[k - 1]?).getD s.cfg.timingSafe }
                  die := { s.die with latch := .idle }
                  trace := s.trace ++
                    ((ref :: (List.range (min (k + 1) n)).map trial).map
                      (fun bytes => .cmd s.cfg.opReadId :: .addr 0x00 :: bytes.map .dataRd)).flatten
                  env := ((fun t => (drawBytes s.cfg.idLen t).2)^[min (k + 1) n] s).env })

/-! ## The profile table and the range of a request -/

/-- R171: `detect` answers the longest matching identifier, the lowest index among equals, and nothing where none matches. -/
def Obligations.DetectTakesLongestThenLowest : Prop :=
  ∀ (c : Config) (idb : List Byte),
    (∀ i,
        detect c idb = some i ↔
          ∃ p, c.profileTable[i]? = some p ∧ p.id <+: idb ∧
            ∀ j q, c.profileTable[j]? = some q → q.id <+: idb →
              q.id.length ≤ p.id.length ∧ (q.id.length = p.id.length → i ≤ j)) ∧
      (detect c idb = none ↔ ∀ p ∈ c.profileTable, ¬p.id <+: idb)

/-- R277: `validate`, clause by clause, and the range it answers lies in the array. -/
def Obligations.RequestValidation : Prop :=
  ∀ (c : Config) (p : Profile) (kind : Byte) (r : Request),
    (kind = c.commands.read ∨ kind = c.commands.write ∨ kind = c.commands.erase) → 1 ≤ p.pagesPerBlock → 1 ≤ p.blockCount →
      (validate c p kind r = none ↔
          r.flags.toNat / 16 ≠ 0 ∨
            (r.flags.getLsbD 3 = false ∧
              (r.count = 0 ∨ p.blockCount ≤ r.startBlock.toNat ∨
                (kind = c.commands.erase ∧ (r.startPage ≠ 0 ∨ p.blockCount < r.startBlock.toNat + r.count.toNat)) ∨
                (kind ≠ c.commands.erase ∧
                  (p.pagesPerBlock ≤ r.startPage.toNat ∨
                    p.blockCount * p.pagesPerBlock <
                      r.startBlock.toNat * p.pagesPerBlock + r.startPage.toNat + r.count.toNat))))) ∧
        ∀ start total,
          validate c p kind r = some (start, total) →
            1 ≤ total ∧
              start + total ≤ (if kind = c.commands.erase then p.blockCount else p.blockCount * p.pagesPerBlock) ∧
              (start, total) =
                (if r.flags.getLsbD 3 = true then
                  (0, if kind = c.commands.erase then p.blockCount else p.blockCount * p.pagesPerBlock)
                else if kind = c.commands.erase then (r.startBlock.toNat, r.count.toNat)
                else (r.startBlock.toNat * p.pagesPerBlock + r.startPage.toNat, r.count.toNat))

/-! ## Starting an operation -/

/-- R279, R255 (no checkpoint), R104 (`info = 0`): an accepted request starts at its range. -/
def Obligations.OperationStartsAtItsRequest : Prop :=
  ∀ (i : Instr) (kind : Byte) (r : Request) (p : Profile) (start total : Nat) (s : State),
    requestOf s.cfg i = some (kind, r) → s.cfg.ok = true → idleLike s.seq = true → heldProfile s = some p →
      validate s.cfg p kind r = some (start, total) → s.cp.valid = false →
        exec i s =
          .next
            { s with
              seq := .running
              op := freshOp s.cfg p kind r start total
              tx := s.tx ++ ackFrame s.cfg kind 0 ++ progressFrame s.cfg 0 (BitVec.ofNat 32 total) }

/-- R255, R258 (c), R104 (`info = 3`): a checkpoint of another kind, outside the range, or with `RESUME_MODE = 0`, is cleared
and the operation starts at its range. The cleared record's fields are free values (notes/assumptions/9.md), which the answer
counter accounts for. -/
def Obligations.StaleCheckpointIsCleared : Prop :=
  ∀ (i : Instr) (kind : Byte) (r : Request) (p : Profile) (start total : Nat) (s : State),
    requestOf s.cfg i = some (kind, r) → s.cfg.ok = true → idleLike s.seq = true → heldProfile s = some p →
      validate s.cfg p kind r = some (start, total) → s.cp.valid = true → s.env.power = .on →
        (s.cp.kind ≠ kind ∨ s.ses.resumeMode = false ∨ cpInRange s.cfg p s.cp kind start total = false) →
          ∃ t,
            exec i s = .next t ∧ t.cp.valid = false ∧
              t =
                { s with
                  seq := .running
                  op := freshOp s.cfg p kind r start total
                  tx := s.tx ++ ackFrame s.cfg kind 3 ++ progressFrame s.cfg 0 (BitVec.ofNat 32 total)
                  cp := t.cp
                  env := { s.env with drawn := s.env.drawn + 1 } }

/-- R255, R256 (Read and Erase), R257, R279: a matching checkpoint is trusted; the operation goes on after it, and is complete at
once when nothing is left. -/
def Obligations.ReadAndEraseResumeAfterTheCheckpoint : Prop :=
  ∀ (i : Instr) (kind : Byte) (r : Request) (p : Profile) (start total done0 : Nat) (s : State),
    requestOf s.cfg i = some (kind, r) → kind ≠ s.cfg.commands.write → s.cfg.ok = true → idleLike s.seq = true →
      heldProfile s = some p →
      validate s.cfg p kind r = some (start, total) → s.cp.valid = true → s.env.power = .on → s.cp.kind = kind →
        s.ses.resumeMode = true → cpInRange s.cfg p s.cp kind start total = true →
          done0 =
              (if kind = s.cfg.commands.erase then s.cp.block.toNat
              else s.cp.block.toNat * p.pagesPerBlock + s.cp.page.toNat) - start + 1 →
            ∃ t,
              exec i s = .next t ∧
                t =
                  { s with
                    seq := if done0 = total then .completed else .running
                    op := resumedOp s.cfg p kind r start total done0 s.cp.hash
                    tx := s.tx ++ ackFrame s.cfg kind 1 ++ progressFrame s.cfg (BitVec.ofNat 32 done0) (BitVec.ofNat 32 total) ++
                      (if done0 = total then completeFrame s.cfg kind (BitVec.ofNat 32 total) else [])
                    cp := t.cp
                    env := t.env } ∧
                (if done0 = total then t.cp.valid = false else t.cp = s.cp ∧ t.env = s.env)

/-- R255, R256, R260, R369: a Write resumes after its checkpoint only when the row it names still hashes to `CP_HASH`; else
the checkpoint is cleared and the operation starts at its range with `info = 2`. The latch is the model's choice
(notes/assumptions/14.md). -/
def Obligations.WriteResumesOnlyAfterReverification : Prop :=
  ∀ (r : Request) (p : Profile) (start total row done0 : Nat) (s : State),
    s.cfg.ok = true → s.cfg.commandsDistinct = true → idleLike s.seq = true →
      validate s.cfg p s.cfg.commands.write r = some (start, total) → s.cp.valid = true →
      s.env.power = .on → s.cp.kind = s.cfg.commands.write → s.ses.resumeMode = true →
      cpInRange s.cfg p s.cp s.cfg.commands.write start total = true →
        row = s.cp.block.toNat * p.pagesPerBlock + s.cp.page.toNat → done0 = row - start + 1 → RowOk p row s →
          (draw s).1 < s.cfg.readyTimeoutRead →
            ∃ t,
              exec (.write r) s = .next t ∧ t.die = { s.die with latch := .idle } ∧
                (if chunkHash s.cfg (readRow s.die.arr row p.unitSize) = s.cp.hash then
                  t =
                      { s with
                        seq := if done0 = total then .completed else .running
                        op := resumedOp s.cfg p s.cfg.commands.write r start total done0 s.cp.hash
                        tx := s.tx ++ ackFrame s.cfg s.cfg.commands.write 1 ++
                          progressFrame s.cfg (BitVec.ofNat 32 done0) (BitVec.ofNat 32 total) ++
                          (if done0 = total then completeFrame s.cfg s.cfg.commands.write (BitVec.ofNat 32 total) else [])
                        cp := t.cp
                        die := t.die
                        trace := t.trace
                        env := t.env } ∧
                    (if done0 = total then t.cp.valid = false else t.cp = s.cp)
                else
                  t =
                      { s with
                        seq := .running
                        op := freshOp s.cfg p s.cfg.commands.write r start total
                        tx := s.tx ++ ackFrame s.cfg s.cfg.commands.write 2 ++ progressFrame s.cfg 0 (BitVec.ofNat 32 total)
                        cp := t.cp
                        die := t.die
                        trace := t.trace
                        env := t.env } ∧
                    t.cp.valid = false)

/-- R365, R372, R255, R282: a read that times out `BUS_RETRY_MAX + 1` times fails the operation with `BUS_TIMEOUT`. In a
`ReadUnit` step nothing of the unit is sent and the cursor stays; at the start of a Write (the re-verification) nothing is
acknowledged. The checkpoint stays. The latch is the model's choice (notes/assumptions/14.md). -/
def Obligations.TimedOutReadsFailTheOperation : Prop :=
  ∀ (p : Profile) (busy rest : List Nat) (s : State),
    heldProfile s = some p → s.env.draws = busy ++ rest → busy.length = s.cfg.busRetryMax + 1 →
      (∀ k ∈ busy, s.cfg.readyTimeoutRead ≤ k) →
        (s.rxq = [] → s.seq = .running → s.op.opKind = s.cfg.commands.read →
            ∃ t,
              engineStep s = .next t ∧
                t =
                  { s with
                    seq := .failed
                    op := { s.op with cause := 0x10 }
                    tx := s.tx ++ failedFrame s.cfg 0x10 s.cfg.commands.read
                    die := { s.die with latch := .idle }
                    trace := t.trace
                    env := { s.env with draws := rest } }) ∧
          ∀ (r : Request) (start total : Nat),
            idleLike s.seq = true → validate s.cfg p s.cfg.commands.write r = some (start, total) → s.cp.valid = true →
              s.cp.kind = s.cfg.commands.write →
              s.ses.resumeMode = true → cpInRange s.cfg p s.cp s.cfg.commands.write start total = true →
                ∃ t,
                  exec (.write r) s = .next t ∧
                    t =
                      { s with
                        seq := .failed
                        op := { freshOp s.cfg p s.cfg.commands.write r start total with cause := 0x10 }
                        tx := s.tx ++ failedFrame s.cfg 0x10 s.cfg.commands.write
                        die := { s.die with latch := .idle }
                        trace := t.trace
                        env := { s.env with draws := rest } }

/-- R276, R277, R284, R364: an operation command with no profile held or with an invalid range, and a payload that is no
legal stream unit, are refused: one frame, nothing else. That a stream unit is an instruction is the model's choice
(notes/assumptions/27.md). -/
def Obligations.BadRequestsAndUnitsAreRefused : Prop :=
  ∀ (i : Instr) (s : State),
    (∀ kind r,
        requestOf s.cfg i = some (kind, r) → idleLike s.seq = true →
          (s.ses.profile = 0xFF → exec i s = .next { s with tx := s.tx ++ failedFrame s.cfg 0x15 kind }) ∧
            ∀ p, heldProfile s = some p → validate s.cfg p kind r = none →
              exec i s = .next { s with tx := s.tx ++ failedFrame s.cfg 0x07 kind }) ∧
      ∀ payload p,
        unitPayload i = some payload → s.seq = .running → s.op.opKind = s.cfg.commands.write → heldProfile s = some p →
          decodeUnit p.unitSize payload = none →
            exec i s = .next { s with tx := s.tx ++ failedFrame s.cfg 0x08 s.cfg.commands.data }

/-! ## The other commands -/

/-- R332: the table of accepted commands; a rejected command's whole effect is one `RSP_FAILED(cause, cmd)`. That a stream
unit is an instruction is the model's choice (notes/assumptions/27.md). -/
def Obligations.RejectedCommandsOnlyAnswer : Prop :=
  ∀ (s : State),
    (active s.seq = true →
        (∀ r, exec (.read r) s = .next { s with tx := s.tx ++ failedFrame s.cfg 0x05 s.cfg.commands.read }) ∧
          (∀ r, exec (.write r) s = .next { s with tx := s.tx ++ failedFrame s.cfg 0x05 s.cfg.commands.write }) ∧
          (∀ r, exec (.erase r) s = .next { s with tx := s.tx ++ failedFrame s.cfg 0x05 s.cfg.commands.erase }) ∧
          (∀ m, exec (.setResume m) s = .next { s with tx := s.tx ++ failedFrame s.cfg 0x05 s.cfg.commands.setResume }) ∧
          (∀ n, exec (.select n) s = .next { s with tx := s.tx ++ failedFrame s.cfg 0x05 s.cfg.commands.select }) ∧
          exec .redetect s = .next { s with tx := s.tx ++ failedFrame s.cfg 0x05 s.cfg.commands.redetect }) ∧
      (active s.seq = false → exec .cancel s = .next { s with tx := s.tx ++ failedFrame s.cfg 0x04 s.cfg.commands.cancel }) ∧
      (s.seq ≠ .running → exec .pause s = .next { s with tx := s.tx ++ failedFrame s.cfg 0x04 s.cfg.commands.pause }) ∧
      (s.seq ≠ .paused → exec .resumeOp s = .next { s with tx := s.tx ++ failedFrame s.cfg 0x04 s.cfg.commands.resumeOp }) ∧
      (s.seq ≠ .running ∨ s.op.opKind ≠ s.cfg.commands.write →
        ∀ i p, unitPayload i = some p → exec i s = .next { s with tx := s.tx ++ failedFrame s.cfg 0x04 s.cfg.commands.data })

/-- R330, R338, R323: `STATUS` reports the held profile; `POWER_CHECK` reports the sample it draws and does not count it. Both in
every state of the sequencer. -/
def Obligations.StatusAndPowerCheckReport : Prop :=
  ∀ (s : State),
    (s.ses.profile = 0xFF → exec .status s = .next { s with tx := s.tx ++ encodeFrame s.cfg s.cfg.responses.model [0xFF] }) ∧
      (∀ p, heldProfile s = some p →
        exec .status s = .next { s with tx := s.tx ++ encodeFrame s.cfg s.cfg.responses.model (s.ses.profile :: p.name) }) ∧
      ∀ mv : U16,
        mv = BitVec.ofNat 16 (draw s).1 →
          exec .powerCheck s =
            .next
              { s with
                pwr := { s.pwr with mv := mv, low := decide (mv.toNat < s.cfg.powerThresholdMv) }
                tx := s.tx ++
                  encodeFrame s.cfg s.cfg.responses.power
                    (leBytes 2 mv.toNat ++ [if mv.toNat < s.cfg.powerThresholdMv then 0x01 else 0x00])
                env := (draw s).2.env }

/-- R290, R333, R289, R335: `CANCEL` of an active operation writes `SEQ` and `CAUSE`, emits one frame, and saves or clears
nothing; `RESUME_OP` of a paused operation goes on at the cursor, no other register changes. -/
def Obligations.CancelAndResumeTouchOnlyTheSequencer : Prop :=
  ∀ (s : State),
    (active s.seq = true →
        exec .cancel s =
          .next
            { s with
              seq := .cancelled, op := { s.op with cause := 0x16 }, tx := s.tx ++ failedFrame s.cfg 0x16 s.op.opKind }) ∧
      (s.seq = .paused →
        exec .resumeOp s = .next { s with seq := .running, tx := s.tx ++ ackFrame s.cfg s.cfg.commands.resumeOp 0 })

/-- R288, R254 (b): `PAUSE` of a running operation saves the position of its last completed unit, if there is one. -/
def Obligations.PauseSavesTheLastCompletedUnit : Prop :=
  ∀ (s : State),
    Inv s → s.seq = .running →
      ∃ t,
        exec .pause s = .next t ∧
          t = { s with seq := .paused, tx := s.tx ++ ackFrame s.cfg s.cfg.commands.pause 0, cp := t.cp } ∧
          (s.op.opDone = 0 → t.cp = s.cp) ∧
          (s.op.opDone ≠ 0 →
            ∃ p, heldProfile s = some p ∧ t.cp.valid = true ∧ t.cp.kind = s.op.opKind ∧ t.cp.hash = s.op.lastHash ∧
              t.cp.token = s.ses.sessionToken ∧
              (if s.op.opKind = s.cfg.commands.erase then
                t.cp.block.toNat + 1 = s.op.opStart.toNat + s.op.opDone.toNat ∧ t.cp.page.toNat + 1 = p.pagesPerBlock
              else
                t.cp.block.toNat * p.pagesPerBlock + t.cp.page.toNat + 1 = s.op.opStart.toNat + s.op.opDone.toNat ∧
                  t.cp.page.toNat < p.pagesPerBlock))

/-- R337: `SET_RESUME`: mode 1 allows resuming, mode 0 forbids it and clears the checkpoint, any other mode is refused. The
cleared record's fields are free values (notes/assumptions/9.md), which the answer counter accounts for. -/
def Obligations.SetResumeModes : Prop :=
  ∀ (s : State),
    idleLike s.seq = true → s.env.power = .on →
      exec (.setResume 0x01) s =
          .next { s with ses := { s.ses with resumeMode := true }, tx := s.tx ++ ackFrame s.cfg s.cfg.commands.setResume 0 } ∧
        (∃ t,
          exec (.setResume 0x00) s = .next t ∧ t.cp.valid = false ∧
            t =
              { s with
                ses := { s.ses with resumeMode := false }
                tx := s.tx ++ ackFrame s.cfg s.cfg.commands.setResume 0
                cp := t.cp
                env := { s.env with drawn := s.env.drawn + 1 } }) ∧
        ∀ m : Byte, 1 < m.toNat →
          exec (.setResume m) s = .next { s with tx := s.tx ++ failedFrame s.cfg 0x07 s.cfg.commands.setResume }

/-- R339, R172, R173: `SELECT` of a table index holds that profile; of any other, it refuses and lists the table. -/
def Obligations.SelectHoldsOrLists : Prop :=
  ∀ (s : State) (index : Byte),
    idleLike s.seq = true →
      (∀ p, s.cfg.profileTable[index.toNat]? = some p →
          exec (.select index) s =
            .next
              { s with
                ses := { s.ses with profile := index }
                tx := s.tx ++ encodeFrame s.cfg s.cfg.responses.model (index :: p.name) }) ∧
        (s.cfg.profileTable.length ≤ index.toNat →
          exec (.select index) s =
            .next { s with tx := s.tx ++ failedFrame s.cfg 0x15 s.cfg.commands.select ++ listingFrames s.cfg })

/-- R340, R191, R194, R171: `REDETECT` whose reset becomes ready within the retry bound reads the identifier and holds the
profile `detect` finds, or lists the table with none held. The latch is the model's choice (notes/assumptions/14.md). -/
def Obligations.RedetectHoldsOrLists : Prop :=
  ∀ (s : State) (busy : List Nat) (k : Nat) (rest : List Nat),
    idleLike s.seq = true → s.env.draws = busy ++ k :: rest → busy.length ≤ s.cfg.busRetryMax →
      (∀ b ∈ busy, s.cfg.readyTimeoutReset ≤ b) → k < s.cfg.readyTimeoutReset → s.cfg.idLen ≤ s.die.nandId.length →
        ∃ t,
          exec .redetect s = .next t ∧
            t =
              { s with
                ses := t.ses
                tx := t.tx
                die := { s.die with latch := .idle }
                trace := t.trace
                env := t.env } ∧
            (∃ cs,
              t.trace =
                s.trace ++
                    (busy.map (fun _ => .cmd s.cfg.opReset :: List.replicate s.cfg.readyTimeoutReset (.rb false))).flatten ++
                    .cmd s.cfg.opReset :: (List.replicate k (.rb false) ++ [.rb true]) ++
                    .cmd s.cfg.opReadId :: .addr 0x00 :: (s.die.nandId.take s.cfg.idLen).map .dataRd ++
                  cs ∧
                ((s.cfg.autotuneEn = false ∨ detect s.cfg (s.die.nandId.take s.cfg.idLen) = none) → cs = [])) ∧
            (∀ i p,
              detect s.cfg (s.die.nandId.take s.cfg.idLen) = some i → s.cfg.profileTable[i]? = some p →
                t.tx = s.tx ++ encodeFrame s.cfg s.cfg.responses.model (BitVec.ofNat 8 i :: p.name) ∧
                  t.ses = { s.ses with profile := BitVec.ofNat 8 i, timing := t.ses.timing } ∧
                  (s.cfg.autotuneEn = false → t.ses.timing = s.ses.timing ∧ t.env = { s.env with draws := rest })) ∧
            (detect s.cfg (s.die.nandId.take s.cfg.idLen) = none →
              t.tx = s.tx ++ failedFrame s.cfg 0x15 s.cfg.commands.redetect ++ listingFrames s.cfg ∧
                t.ses = { s.ses with profile := 0xFF } ∧ t.env = { s.env with draws := rest })

/-- R340, R365: `REDETECT` whose reset times out `BUS_RETRY_MAX + 1` times is refused with `BUS_TIMEOUT`, and no profile is
held. The latch is the model's choice (notes/assumptions/14.md). -/
def Obligations.RedetectTimeoutDropsTheProfile : Prop :=
  ∀ (s : State) (busy rest : List Nat),
    idleLike s.seq = true → s.env.draws = busy ++ rest → busy.length = s.cfg.busRetryMax + 1 →
      (∀ b ∈ busy, s.cfg.readyTimeoutReset ≤ b) →
        exec .redetect s =
          .next
            { s with
              ses := { s.ses with profile := 0xFF }
              tx := s.tx ++ failedFrame s.cfg 0x10 s.cfg.commands.redetect
              die := { s.die with latch := .idle }
              trace := s.trace ++
                (busy.map (fun _ => .cmd s.cfg.opReset :: List.replicate s.cfg.readyTimeoutReset (.rb false))).flatten
              env := { s.env with draws := rest } }

/-- R341, R401, R402: `EXIT` cancels an active operation, acknowledges, and resets every volatile register; `RXQ`, the
checkpoint, the die and the parameters stay. -/
def Obligations.ExitStartsANewSession : Prop :=
  ∀ (s : State),
    exec .exit s =
      .next
        { s with
          seq := .idle
          op :=
            { cause := 0, opKind := 0, optCompress := false, optSkipBlank := false, optVerify := false, opStart := 0
              opTotal := 0, opDone := 0, curBlock := 0, curPage := 0, bytesDone := 0, lastHash := 0, frameErrCnt := 0 }
          dec := { rxState := .hunt0, rxBody := [], rxLen := 0, rxCk := 0 }
          ses :=
            { profile := 0xFF, resumeMode := true, timing := s.cfg.timingSafe
              sessionToken := BitVec.ofNat 32 (draw s).1
              strategy := if s.cfg.accelAvailable then .accelerated else .direct }
          pwr := { mv := 0, low := false, lowCount := 0 }
          tx := s.tx ++ (if active s.seq then failedFrame s.cfg 0x16 s.op.opKind else []) ++ ackFrame s.cfg s.cfg.commands.exit 0
          env := (draw s).2.env }

/-! ## Units of a Write -/

/-- R284, R336, R285, R68: a good unit in a running Write, brought by `DATA` or by one of the three stream units, is
programmed at the cursor (and, under verify, reads back as sent), hashed and counted. The latch and the units as instructions
are the model's choices (notes/assumptions/14.md, 27.md). -/
def Obligations.DataUnitIsProgrammed : Prop :=
  ∀ (i : Instr) (payload x : List Byte) (p : Profile) (s : State),
    unitPayload i = some payload → s.cfg.ok = true → s.cfg.commandsDistinct = true → s.env.power = .on →
      s.seq = .running → PageOpOk p s →
      s.op.opKind = s.cfg.commands.write → s.op.opDone.toNat < s.op.opTotal.toNat → RowOk p (cursorRow p s) s →
        decodeUnit p.unitSize payload = some x → (s.op.optSkipBlank = false ∨ ∃ b ∈ x, b ≠ 0xFF) →
          (draw s).1 < s.cfg.readyTimeoutProg → (draw (draw s).2).1 % 2 = 0 →
            (s.op.optVerify = true →
              (draw (draw (draw s).2).2).1 < s.cfg.readyTimeoutRead ∧
                ∀ j b, x[j]? = some b → cellByte s.die.arr (cellAddr (cursorRow p s) j) &&& b = b) →
              ∃ t,
                exec i s = .next t ∧
                  t =
                    { s with
                      seq := seqAfterUnit s.seq s.op
                      op :=
                        { countedOp s.cfg p s.op with
                          lastHash := chunkHash s.cfg x
                          bytesDone := s.op.bytesDone + BitVec.ofNat 64 p.unitSize
                          frameErrCnt := 0 }
                      cp := t.cp
                      tx := s.tx ++ unitFrames s.cfg s.op
                      die := { s.die with arr := t.die.arr, status := t.die.status, latch := .idle }
                      trace := t.trace
                      env := t.env } ∧
                  CheckpointAfterUnit p s (chunkHash s.cfg x) t.cp ∧
                  SameOutside (cursorRow p s) 1 p.unitSize s.die.arr t.die.arr ∧
                  ∀ j b, x[j]? = some b →
                    cellByte t.die.arr (cellAddr (cursorRow p s) j) = cellByte s.die.arr (cellAddr (cursorRow p s) j) &&& b

/-- R284 with `OPT_SKIPBLANK = 1`: a unit that decodes to all `0xFF` is hashed and counted, and the bus is not used. The
units as instructions are the model's choice (notes/assumptions/27.md). -/
def Obligations.BlankUnitIsNotProgrammed : Prop :=
  ∀ (i : Instr) (payload x : List Byte) (p : Profile) (s : State),
    unitPayload i = some payload → s.cfg.ok = true → s.cfg.commandsDistinct = true → s.env.power = .on →
      s.seq = .running → PageOpOk p s →
      s.op.opKind = s.cfg.commands.write → s.op.opDone.toNat < s.op.opTotal.toNat → heldProfile s = some p →
        decodeUnit p.unitSize payload = some x → s.op.optSkipBlank = true → (∀ b ∈ x, b = 0xFF) →
          ∃ t,
            exec i s = .next t ∧
              t =
                { s with
                  seq := seqAfterUnit s.seq s.op
                  op :=
                    { countedOp s.cfg p s.op with
                      lastHash := chunkHash s.cfg x
                      bytesDone := s.op.bytesDone + BitVec.ofNat 64 p.unitSize
                      frameErrCnt := 0 }
                  cp := t.cp
                  tx := s.tx ++ unitFrames s.cfg s.op
                  env := t.env } ∧
              CheckpointAfterUnit p s (chunkHash s.cfg x) t.cp

/-- R285, R366, R367, R413: a program whose status byte reports failure ends the operation at once with `NAND_STATUS_FAIL`;
under verify, a unit that cannot read back as sent (a bit to be set over a programmed 0) is programmed `VERIFY_RETRY_MAX + 1`
times and then fails the operation with `VERIFY`. The unit is not counted, the checkpoint stays, no other row moves. The
latch and the units as instructions are the model's choices (notes/assumptions/14.md, 27.md). -/
def Obligations.FailedProgramsEndTheWrite : Prop :=
  ∀ (i : Instr) (payload x : List Byte) (p : Profile) (s : State),
    unitPayload i = some payload → s.cfg.ok = true → s.env.power = .on → s.seq = .running → s.op.opKind = s.cfg.commands.write →
      RowOk p (cursorRow p s) s → decodeUnit p.unitSize payload = some x →
        (s.op.optSkipBlank = false ∨ ∃ b ∈ x, b ≠ 0xFF) →
          ((draw s).1 < s.cfg.readyTimeoutProg → (draw (draw s).2).1 % 2 = 1 →
              ∃ t,
                exec i s = .next t ∧
                  t =
                    { s with
                      seq := .failed
                      op := { s.op with cause := 0x11 }
                      tx := s.tx ++ failedFrame s.cfg 0x11 s.cfg.commands.write
                      die := { s.die with arr := t.die.arr, status := t.die.status, latch := .idle }
                      trace := t.trace
                      env := t.env } ∧
                  SameOutside (cursorRow p s) 1 p.unitSize s.die.arr t.die.arr) ∧
            ∀ (attempts : List (Nat × Nat × Nat)) (rest : List Nat),
              s.op.optVerify = true →
                (∃ j b, x[j]? = some b ∧ cellByte s.die.arr (cellAddr (cursorRow p s) j) &&& b ≠ b) →
                  attempts.length = s.cfg.verifyRetryMax + 1 →
                    (∀ a ∈ attempts,
                      a.1 < s.cfg.readyTimeoutProg ∧ a.2.1 % 2 = 0 ∧ a.2.2 < s.cfg.readyTimeoutRead) →
                      s.env.draws = (attempts.map (fun a => [a.1, a.2.1, a.2.2])).flatten ++ rest →
                        ∃ t,
                          exec i s = .next t ∧
                            t =
                              { s with
                                seq := .failed
                                op := { s.op with cause := 0x12 }
                                tx := s.tx ++ failedFrame s.cfg 0x12 s.cfg.commands.write
                                die := { s.die with arr := t.die.arr, status := t.die.status, latch := .idle }
                                trace := t.trace
                                env := { s.env with draws := rest } } ∧
                            SameOutside (cursorRow p s) 1 p.unitSize s.die.arr t.die.arr

/-! ## Steps of the engine -/

/-- R273, R274: a step at the last byte of a host frame is `exec` of the instruction the frame encodes, with that byte taken
from `RXQ` and the decoder hunting again; a step whose turn issues an instruction is `exec` of it. The issue turn is the
model's choice (notes/assumptions/14.md). -/
def Obligations.StepRunsTheDecodedInstruction : Prop :=
  ∀ (s : State) (i : Instr),
    s.cfg.ok = true → i.wf s.cfg = true → s.cfg.codesDistinct = true →
      (∀ (d0 : Decoder) (init : List Byte) (last : Byte) (rest : List Byte),
          i.space = .command → d0.rxState = .hunt0 → encode s.cfg i = init ++ [last] → s.env.schedule = [] →
            s.rxq = last :: rest → s.dec = (rxBytes s.cfg d0 init).2 →
              ∃ d, d.rxState = .hunt0 ∧ step s = exec i { s with rxq := rest, dec := d }) ∧
        (∀ turns : List Turn,
          s.env.schedule = .issue i.space (encode s.cfg i) :: turns →
            step s = exec i { s with env := { s.env with schedule := turns } })

/-- R274, R95: a checksum-valid frame whose `CMD` is no command code is refused with `UNKNOWN_COMMAND`, one of the wrong length
with `BAD_LENGTH`, before the state is looked at; under the codes of R93 the unknown ones are those R95 names; `DATA` has no
fixed length, and every malformed payload of R115, the empty one included, is a `StreamError`. -/
def Obligations.DispatchChecksCodeThenLength : Prop :=
  ∀ (cmd : Byte) (payload : List Byte) (s : State),
    ((∀ k : Cmd, cmd ≠ k.code s.cfg) →
        dispatchFrame cmd payload s = .next { s with tx := s.tx ++ failedFrame s.cfg 0x03 cmd }) ∧
      (s.cfg.commands =
            { status := 0x01, read := 0x02, write := 0x03, erase := 0x04, cancel := 0x05, pause := 0x06, resumeOp := 0x07
              setResume := 0x08, powerCheck := 0x09, select := 0x0A, redetect := 0x0B, exit := 0x0C, data := 0x10 } →
          cmd = 0x00 ∨ (0x0D ≤ cmd.toNat ∧ cmd.toNat ≤ 0x0F) ∨ 0x11 ≤ cmd.toNat →
            dispatchFrame cmd payload s = .next { s with tx := s.tx ++ failedFrame s.cfg 0x03 cmd }) ∧
      (s.cfg.commandsDistinct = true →
        (((cmd = s.cfg.commands.read ∨ cmd = s.cfg.commands.write ∨ cmd = s.cfg.commands.erase) ∧ payload.length ≠ 11) ∨
              ((cmd = s.cfg.commands.setResume ∨ cmd = s.cfg.commands.select) ∧ payload.length ≠ 1) ∨
              ((cmd = s.cfg.commands.status ∨ cmd = s.cfg.commands.cancel ∨ cmd = s.cfg.commands.pause ∨
                  cmd = s.cfg.commands.resumeOp ∨ cmd = s.cfg.commands.powerCheck ∨ cmd = s.cfg.commands.redetect ∨
                  cmd = s.cfg.commands.exit) ∧
                payload ≠ []) →
            dispatchFrame cmd payload s = .next { s with tx := s.tx ++ failedFrame s.cfg 0x06 cmd }) ∧
          dispatchFrame s.cfg.commands.data payload s = exec (.data payload) s) ∧
      ∀ u : Nat,
        (payload = [] ∨
            ∃ (tag : Byte) (body : List Byte),
              payload = tag :: body ∧
                ((tag ≠ 0x00 ∧ tag ≠ 0x01 ∧ tag ≠ 0x02) ∨ (tag = 0x00 ∧ body.length ≠ u) ∨ (tag = 0x02 ∧ body ≠ []) ∨
                  (tag = 0x01 ∧
                    (body = [] ∨ body.length % 2 = 1 ∨
                      ∃ ts : List RunToken,
                        body = bytesOfTokens ts ∧
                          ((∃ t ∈ ts, t.count = 0) ∨ (ts.map (fun t => t.count.toNat)).sum ≠ u))))) →
          decodeUnit u payload = none

/-- R363: a FrameError is answered and, except while a Write awaits data, changes nothing but `TX`, however many there are;
while a Write awaits data it is counted, and one too many in a row fails the operation. What the u8 counter becomes above 255
is a free value (notes/assumptions/4.md): the last clause is for whatever it is. -/
def Obligations.FrameErrorsAreCounted : Prop :=
  ∀ (s : State) (k : RxResult) (cause : Byte),
    ((k = .errChecksum ∧ cause = 0x01) ∨ (k = .errLength ∧ cause = 0x02)) →
      (¬(s.seq = .running ∧ s.op.opKind = s.cfg.commands.write) →
          serviceResult k s = .next { s with tx := s.tx ++ failedFrame s.cfg cause 0x00 }) ∧
        (s.seq = .running → s.op.opKind = s.cfg.commands.write → s.op.frameErrCnt.toNat < 255 →
          serviceResult k s =
            .next
              (if s.op.frameErrCnt.toNat + 1 > s.cfg.frameRetryMax then
                { s with
                  seq := .failed
                  op := { s.op with frameErrCnt := s.op.frameErrCnt + 1, cause := 0x18 }
                  tx := s.tx ++ failedFrame s.cfg cause 0x00 ++ failedFrame s.cfg 0x18 s.cfg.commands.write }
              else
                { s with
                  op := { s.op with frameErrCnt := s.op.frameErrCnt + 1 }, tx := s.tx ++ failedFrame s.cfg cause 0x00 })) ∧
        (s.seq = .running → s.op.opKind = s.cfg.commands.write → s.op.frameErrCnt = 0xFF →
          ∃ n : Nat,
            serviceResult k s =
              .next
                (if n > s.cfg.frameRetryMax then
                  { s with
                    seq := .failed
                    op := { s.op with frameErrCnt := BitVec.ofNat 8 n, cause := 0x18 }
                    tx := s.tx ++ failedFrame s.cfg cause 0x00 ++ failedFrame s.cfg 0x18 s.cfg.commands.write
                    env := { s.env with drawn := s.env.drawn + 1 } }
                else
                  { s with
                    op := { s.op with frameErrCnt := BitVec.ofNat 8 n }
                    tx := s.tx ++ failedFrame s.cfg cause 0x00
                    env := { s.env with drawn := s.env.drawn + 1 } }))

/-- R282, R67: a `ReadUnit` step sends the row at the cursor, hashes it and counts it; the array stays. The latch is the
model's choice (notes/assumptions/14.md). -/
def Obligations.ReadUnitSendsTheRow : Prop :=
  ∀ (p : Profile) (x : List Byte) (s : State),
    s.cfg.ok = true → s.cfg.commandsDistinct = true → s.env.power = .on → s.rxq = [] → s.seq = .running → PageOpOk p s →
      s.op.opKind = s.cfg.commands.read →
      s.op.opDone.toNat < s.op.opTotal.toNat → RowOk p (cursorRow p s) s → (draw s).1 < s.cfg.readyTimeoutRead →
        x = readRow s.die.arr (cursorRow p s) p.unitSize →
          ∃ t,
            engineStep s = .next t ∧
              t =
                { s with
                  seq := seqAfterUnit s.seq s.op
                  op :=
                    { countedOp s.cfg p s.op with
                      lastHash := chunkHash s.cfg x, bytesDone := s.op.bytesDone + BitVec.ofNat 64 p.unitSize }
                  cp := t.cp
                  tx := s.tx ++
                    encodeFrame s.cfg s.cfg.responses.data (encodeUnit s.cfg.maxRun x s.op.optCompress s.op.optSkipBlank) ++
                    unitFrames s.cfg s.op
                  die := { s.die with latch := .idle }
                  trace := t.trace
                  env := t.env } ∧
              CheckpointAfterUnit p s (chunkHash s.cfg x) t.cp

/-- R286, R69: an `EraseUnit` step erases the block at the cursor (and, under verify, reads its pages back), counts it and
leaves `LAST_HASH` and `BYTES_DONE`. The latch is the model's choice (notes/assumptions/14.md). -/
def Obligations.EraseUnitErasesTheBlock : Prop :=
  ∀ (p : Profile) (s : State) (k d : Nat) (reads rest : List Nat),
    s.cfg.ok = true → s.cfg.commandsDistinct = true → s.env.power = .on → s.rxq = [] → s.seq = .running → EraseOpOk p s →
      s.op.opDone.toNat < s.op.opTotal.toNat → RowOk p (s.op.curBlock.toNat * p.pagesPerBlock) s →
        s.env.draws = k :: d :: (reads ++ rest) → k < s.cfg.readyTimeoutErase → d % 2 = 0 →
          reads.length = (if s.op.optVerify then p.pagesPerBlock else 0) → (∀ b ∈ reads, b < s.cfg.readyTimeoutRead) →
            ∃ t,
              engineStep s = .next t ∧
                t =
                  { s with
                    seq := seqAfterUnit s.seq s.op
                    op := countedOp s.cfg p s.op
                    cp := t.cp
                    tx := s.tx ++ unitFrames s.cfg s.op
                    die := { s.die with arr := t.die.arr, status := t.die.status, latch := .idle }
                    trace := t.trace
                    env := { s.env with draws := rest, drawn := t.env.drawn } } ∧
                CheckpointAfterUnit p s s.op.lastHash t.cp ∧
                SameOutside (s.op.curBlock.toNat * p.pagesPerBlock) p.pagesPerBlock p.unitSize s.die.arr t.die.arr ∧
                ∀ g j, g < p.pagesPerBlock → j < p.unitSize →
                  cellByte t.die.arr (cellAddr (s.op.curBlock.toNat * p.pagesPerBlock + g) j) = 0xFF

/-- R94, R104 to R111, R142: each response instruction appends its frame to `TX` and nothing else, and a host decoder that hunts
reads back the code and payload the rules give it. That a response is an instruction, which executed by itself is emitted,
is the model's choice (notes/assumptions/14.md), and so is that a payload above `MAX_PAYLOAD` is emitted all the same
(notes/assumptions/30.md). -/
def Obligations.ResponsesAppendTheirFrames : Prop :=
  ∀ (i : Instr) (code : Byte) (payload : List Byte) (s : State) (d : Decoder),
    (∃ cmd info, i = .rspAck cmd info ∧ code = s.cfg.responses.ack ∧ payload = [cmd, info]) ∨
      (i = .rspListEnd ∧ code = s.cfg.responses.listEnd ∧ payload = []) ∨
      (∃ index name, i = .rspModel index name ∧ code = s.cfg.responses.model ∧ payload = index :: name) ∨
      (∃ pct done total, i = .rspProgress pct done total ∧ code = s.cfg.responses.progress ∧
        payload = pct :: (leBytes 4 done.toNat ++ leBytes 4 total.toNat)) ∨
      (∃ kind units, i = .rspComplete kind units ∧ code = s.cfg.responses.complete ∧ payload = kind :: leBytes 4 units.toNat) ∨
      (∃ cause ctx, i = .rspFailed cause ctx ∧ code = s.cfg.responses.failed ∧ payload = [cause, ctx]) ∨
      (∃ mv low, i = .rspPower mv low ∧ code = s.cfg.responses.power ∧ payload = leBytes 2 mv.toNat ++ [if low then 0x01 else 0x00]) ∨
      (∃ n, i = .rspListStart n ∧ code = s.cfg.responses.listStart ∧ payload = [n]) ∨
      (∃ index name, i = .rspListEntry index name ∧ code = s.cfg.responses.listEntry ∧ payload = index :: name) ∨
      (∃ unit, i = .rspData unit ∧ code = s.cfg.responses.data ∧ payload = unit) →
      exec i s = .next { s with tx := s.tx ++ encodeFrame s.cfg code payload } ∧
        (d.rxState = .hunt0 → i.wf s.cfg = true →
          (rxBytes s.cfg d (encodeFrame s.cfg code payload)).1.getLast? = some (.frame code payload))

/-! ## Events of the environment -/

/-- R321, R322: a supply sample: the low ones warn and count, the `POWER_FAIL_COUNT`-th in a row with an operation active fails it;
a sample at or above the threshold restarts the count. -/
def Obligations.SupplySamplesWarnAndAbort : Prop :=
  ∀ (s : State) (mv : U16) (n : Nat),
    n = min (s.pwr.lowCount.toNat + 1) 255 →
      takeTurn (.powerSample mv) s =
        .next
          (if mv.toNat < s.cfg.powerThresholdMv then
            if active s.seq = true ∧ s.cfg.powerFailCount ≤ n then
              { s with
                pwr := { mv := mv, low := true, lowCount := BitVec.ofNat 8 n }
                seq := .failed
                op := { s.op with cause := 0x13 }
                tx := s.tx ++ encodeFrame s.cfg s.cfg.responses.power (leBytes 2 mv.toNat ++ [0x01]) ++
                  failedFrame s.cfg 0x13 s.op.opKind }
            else
              { s with
                pwr := { mv := mv, low := true, lowCount := BitVec.ofNat 8 n }
                tx := s.tx ++ encodeFrame s.cfg s.cfg.responses.power (leBytes 2 mv.toNat ++ [0x01]) }
          else { s with pwr := { mv := mv, low := false, lowCount := 0 } })

/-- R325: with `LOW_COUNT = 0` before them, fewer than `POWER_FAIL_COUNT` low samples in a row leave an active operation as it is,
and the `POWER_FAIL_COUNT`-th fails it with `POWER`, its checkpoint kept. -/
def Obligations.PersistentLowSupplyFailsTheOperation : Prop :=
  ∀ (s : State) (mvs : List U16),
    s.cfg.ok = true → s.cfg.powerFailCount ≤ 255 → active s.seq = true → s.pwr.lowCount = 0 →
      (∀ mv ∈ mvs, mv.toNat < s.cfg.powerThresholdMv) →
        (mvs.length < s.cfg.powerFailCount →
            (mvs.foldl (fun u mv => powerSample mv u) s).seq = s.seq ∧
              (mvs.foldl (fun u mv => powerSample mv u) s).op = s.op) ∧
          (mvs.length = s.cfg.powerFailCount →
            (mvs.foldl (fun u mv => powerSample mv u) s).seq = .failed ∧
              (mvs.foldl (fun u mv => powerSample mv u) s).op = { s.op with cause := 0x13 } ∧
              (mvs.foldl (fun u mv => powerSample mv u) s).cp = s.cp ∧
              (mvs.foldl (fun u mv => powerSample mv u) s).tx =
                s.tx ++ (mvs.map (fun mv => encodeFrame s.cfg s.cfg.responses.power (leBytes 2 mv.toNat ++ [0x01]))).flatten ++
                  failedFrame s.cfg 0x13 s.op.opKind)

/-- R376, R293: the inactivity timeout of a quiescent machine: the decoder hunts, `SEQ` is `Idle`, and an active operation is
reported and marked; session, power, counters and checkpoint stay. -/
def Obligations.InactivityTimeoutReturnsToIdle : Prop :=
  ∀ (s : State),
    s.rxq = [] → ¬(s.seq = .running ∧ (s.op.opKind = s.cfg.commands.read ∨ s.op.opKind = s.cfg.commands.erase)) →
      takeTurn .inactivityTimeout s =
        .next
          { s with
            dec := { s.dec with rxState := .hunt0 }
            seq := .idle
            op := if active s.seq then { s.op with cause := 0x17 } else s.op
            tx := s.tx ++ (if active s.seq then failedFrame s.cfg 0x17 s.op.opKind else []) }

/-- R400, R401: `PowerOn`: every volatile register has its reset value, the streams are empty; the array, the identifier, the
checkpoint and the parameters stay; at the first power-on ever `CP_VALID = 0`. -/
def Obligations.PowerOnResetsTheVolatileState : Prop :=
  ∀ (s : State),
    ∃ t,
      takeTurn .powerOn s = .next t ∧
        t =
          { s with
            seq := .idle
            op :=
              { cause := 0, opKind := 0, optCompress := false, optSkipBlank := false, optVerify := false, opStart := 0
                opTotal := 0, opDone := 0, curBlock := 0, curPage := 0, bytesDone := 0, lastHash := 0, frameErrCnt := 0 }
            dec := { rxState := .hunt0, rxBody := [], rxLen := 0, rxCk := 0 }
            ses :=
              { profile := 0xFF, resumeMode := true, timing := s.cfg.timingSafe, sessionToken := t.ses.sessionToken
                strategy := if s.cfg.accelAvailable then .accelerated else .direct }
            pwr := { mv := 0, low := false, lowCount := 0 }
            rxq := []
            tx := []
            die := { s.die with status := t.die.status, latch := t.die.latch }
            trace := t.trace
            env := t.env } ∧
        State.reset.cp.valid = false

/-- R400, R416, R72: power failing inside an engine step after `n` durable effects. Before the first one the checkpoint is as it
was, and with no array transaction in flight the array as well. The checkpoint is the one before the step or the one the
whole step leaves, never torn. Whatever is torn, only the row a Write stands at or the block an Erase stands at may differ:
every other row keeps its content, and with neither running no cell moves. In an Erase unit the first effect is the erase
and the second the checkpoint, so `n = 1` leaves the block erased and the old checkpoint, `n ≥ 2` the whole step's effects.
How power fails inside a step is the model's choice (notes/assumptions/13.md). -/
def Obligations.PowerCutKeepsDurableState : Prop :=
  ∀ (s t : State) (n : Nat) (inFlight : Bool),
    s.cfg.ok = true → s.cfg.commandsDistinct = true → s.env.power = .on → powerOnDuring n inFlight s = .next t →
      t.seq = .idle ∧ t.env.power = .on ∧
        (n = 0 → t.cp = s.cp ∧ (inFlight = false → t.die.arr = s.die.arr)) ∧
        (t.cp = s.cp ∨ ∃ u, engineStep s = .next u ∧ t.cp = u.cp) ∧
        (¬(s.seq = .running ∧ (s.op.opKind = s.cfg.commands.write ∨ s.op.opKind = s.cfg.commands.erase)) →
          t.die.arr = s.die.arr) ∧
        ∀ p : Profile,
          (s.op.opKind = s.cfg.commands.write → RowOk p (cursorRow p s) s →
              SameOutside (cursorRow p s) 1 p.unitSize s.die.arr t.die.arr) ∧
            (s.op.opKind = s.cfg.commands.erase → RowOk p (s.op.curBlock.toNat * p.pagesPerBlock) s →
              SameOutside (s.op.curBlock.toNat * p.pagesPerBlock) p.pagesPerBlock p.unitSize s.die.arr t.die.arr ∧
                ∀ (k d : Nat) (rest : List Nat) (u : State),
                  s.rxq = [] → s.seq = .running → EraseOpOk p s → s.op.optVerify = false → s.env.draws = k :: d :: rest →
                    k < s.cfg.readyTimeoutErase → d % 2 = 0 → engineStep s = .next u → 1 ≤ n →
                      t.die.arr = u.die.arr ∧ (n = 1 → t.cp = s.cp) ∧ (2 ≤ n → t.cp = u.cp))

/-- R251, R252, R416: `save` and `clear` write the record whole or, power gone, not at all, and nothing else of the machine. -/
def Obligations.CheckpointWritesAreAtomic : Prop :=
  ∀ (s : State) (kind : Byte) (block : U32) (page : U16) (hash token : U32) (new : Checkpoint),
    new = { valid := true, kind := kind, block := block, page := page, hash := hash, token := token } →
      (s.env.power = .on → save kind block page hash token s = { s with cp := new }) ∧
        ((save kind block page hash token s).cp = s.cp ∨ (save kind block page hash token s).cp = new) ∧
        (s.env.power = .on → (clearCp s).cp.valid = false) ∧
        ((clearCp s).cp = s.cp ∨ (clearCp s).cp.valid = false) ∧
        clearCp s = { s with cp := (clearCp s).cp, env := (clearCp s).env } ∧
        save kind block page hash token s =
          { s with cp := (save kind block page hash token s).cp, env := (save kind block page hash token s).env }

/-- R7: a configuration that breaks one of the constraints is refused at every step. -/
def Obligations.BadConfigurationIsRefused : Prop :=
  ∀ (s : State) (c : Config),
    c = s.cfg →
      (c.readyTimeoutRead = 0 ∨ c.readyTimeoutProg = 0 ∨ c.readyTimeoutErase = 0 ∨ c.readyTimeoutReset = 0 ∨
          c.powerFailCount = 0 ∨ c.maxRun = 0 ∨ 255 < c.maxRun ∨ 255 < c.profileTable.length ∨
          ∃ p ∈ c.profileTable,
            p.pageSize + p.oobSize = 0 ∨ 32767 < p.pageSize + p.oobSize ∨ p.pagesPerBlock = 0 ∨ p.blockCount = 0 ∨
              2 ^ (8 * c.rowCycles) ≤ p.blockCount * p.pagesPerBlock ∨ 2 ^ 32 ≤ p.blockCount * p.pagesPerBlock ∨
              65535 < p.pagesPerBlock ∨ c.maxPayload < 1 + 2 * (p.pageSize + p.oobSize)) →
        step s = .refused .invalidConfig

/-! ## The whole machine -/

/-- R401, R21, R23, R27, R28, R6: what reset leaves, register by register, that the parameters to which R6 gives a value hold
it, and that it is a sound state. `SESSION_TOKEN` is a draw by R401; its value is not stated. -/
def Obligations.ResetIsSound : Prop :=
  Inv State.reset ∧ State.reset.seq = .idle ∧
    State.reset.op =
      { cause := 0, opKind := 0, optCompress := false, optSkipBlank := false, optVerify := false, opStart := 0
        opTotal := 0, opDone := 0, curBlock := 0, curPage := 0, bytesDone := 0, lastHash := 0, frameErrCnt := 0 } ∧
    State.reset.dec = { rxState := .hunt0, rxBody := [], rxLen := 0, rxCk := 0 } ∧
    State.reset.ses =
      { profile := 0xFF, resumeMode := true, timing := State.reset.cfg.timingSafe
        sessionToken := State.reset.ses.sessionToken
        strategy := if State.reset.cfg.accelAvailable then .accelerated else .direct } ∧
    State.reset.pwr = { mv := 0, low := false, lowCount := 0 } ∧ State.reset.cp.valid = false ∧ State.reset.rxq = [] ∧
    State.reset.tx = [] ∧
    State.reset.cfg =
      { State.reset.cfg with
        magic0 := 0xA5, magic1 := 0x5A, checksum := .byteSum, maxPayload := 65536, idLen := 5, colCycles := 2, rowCycles := 3
        commands :=
          { status := 0x01, read := 0x02, write := 0x03, erase := 0x04, cancel := 0x05, pause := 0x06, resumeOp := 0x07
            setResume := 0x08, powerCheck := 0x09, select := 0x0A, redetect := 0x0B, exit := 0x0C, data := 0x10 }
        responses :=
          { ack := 0x80, model := 0x81, progress := 0x82, complete := 0x83, failed := 0x84, power := 0x85
            listStart := 0x86, listEntry := 0x87, listEnd := 0x88, data := 0x89 }
        opReadSetup := 0x00, opReadConfirm := 0x30, opProgSetup := 0x80, opProgConfirm := 0x10, opEraseSetup := 0x60
        opEraseConfirm := 0xD0, opReadStatus := 0x70, opReadId := 0x90, opReset := 0xFF, autotuneEn := false
        busRetryMax := 3, verifyRetryMax := 3, frameRetryMax := 3, powerFailCount := 3, maxRun := 255, hash := .mulXor
        hashInit := 0x00001505 }

/-- The invariant every step keeps: the configuration is legal and its command codes differ, the array is in canonical form, `PROFILE` names an entry or none
(R27), an active operation stands where R21 says, and the decoder registers agree with the place in the frame (R23). -/
def Obligations.EveryStepKeepsTheMachineSound : Prop := ∀ (s t : State), Inv s → step s = .next t → Inv t

/-- R27 ("every rule that uses them is guarded"): in a sound state no step reads the geometry of a profile that is not held. -/
def Obligations.SoundStatesNeverFault : Prop := ∀ (s : State) (f : Fault), Inv s → step s ≠ .fault f

/-- R270: `SEQ` moves in no step but along the transitions of the table. -/
def Obligations.SequencerMovesAlongItsTable : Prop := ∀ (s t : State), step s = .next t → SeqMove s.seq t.seq

/-- R60, R254, R258: only a Write unit, a program confirm and an erase confirm move the array; only an operation start, a Write
unit, `PAUSE` and `SET_RESUME` write the checkpoint record. Every other instruction leaves them. -/
def Obligations.OtherInstructionsLeaveDurableState : Prop :=
  ∀ (i : Instr) (s t : State),
    unitPayload i = none → exec i s = .next t →
      (i ≠ .opProgConfirm → i ≠ .opEraseConfirm → t.die.arr = s.die.arr) ∧
        (requestOf s.cfg i = none → i ≠ .pause → (∀ m, i ≠ .setResume m) → t.cp = s.cp)

/-- R30: nothing removes from `TX` but power-on. -/
def Obligations.TxOnlyGrows : Prop :=
  ∀ (s t : State),
    step s = .next t → nextTurn s ≠ .powerOn → (∀ n f, nextTurn s ≠ .powerOnDuring n f) → ∃ frames, t.tx = s.tx ++ frames

/-- R344: every frame handled yields at least one response frame. -/
def Obligations.EveryFrameIsAnswered : Prop :=
  ∀ (cmd : Byte) (payload : List Byte) (s t : State),
    dispatchFrame cmd payload s = .next t →
      ∃ (i : Instr) (more : List Byte), i.space = .response ∧ t.tx = s.tx ++ encode s.cfg i ++ more

/-- R79, R27: the parameters never change, and while an operation goes on neither does a session register, so the geometry is
constant within an operation. -/
def Obligations.SessionIsFixedDuringAnOperation : Prop :=
  ∀ (s t : State), step s = .next t → t.cfg = s.cfg ∧ (active s.seq = true → active t.seq = true → t.ses = s.ses)

/-- R281, R21: within one operation the kind, the range and the three options stay, and `OP_DONE` grows by at most one unit a step, up to
`OP_TOTAL`. -/
def Obligations.ProgressIsMonotone : Prop :=
  ∀ (s t : State),
    Inv s → step s = .next t → active s.seq = true → t.seq ≠ .idle →
      t.op.opKind = s.op.opKind ∧ t.op.optCompress = s.op.optCompress ∧ t.op.optSkipBlank = s.op.optSkipBlank ∧
        t.op.optVerify = s.op.optVerify ∧ t.op.opStart = s.op.opStart ∧ t.op.opTotal = s.op.opTotal ∧
        s.op.opDone.toNat ≤ t.op.opDone.toNat ∧ t.op.opDone.toNat ≤ s.op.opDone.toNat + 1 ∧
        t.op.opDone.toNat ≤ t.op.opTotal.toNat
end

