-- ==== Sys2Proof/Laws/Codec.lean ====
section
/-! SUPPORT. Byte order, the frame layout and the byte-serial decoder: what each reads back. -/

namespace Sys2Proof

/-! ## Byte order (R9) -/

@[simp] theorem leBytes_length (n v : Nat) : (leBytes n v).length = n := by
  induction n generalizing v with
  | zero => rfl
  | succ n ih => simp [leBytes, ih]

theorem unLe_leBytes (n v : Nat) : unLe (leBytes n v) = v % 256 ^ n := by
  induction n generalizing v with
  | zero => simp [leBytes, unLe, Nat.mod_one]
  | succ n ih =>
    have hb : (BitVec.ofNat 8 v).toNat = v % 256 := by simp only [BitVec.toNat_ofNat]
    rw [leBytes, unLe, ih, hb, Nat.pow_succ', Nat.mod_mul]

theorem unLe_leBytes_of_lt {n v : Nat} (h : v < 256 ^ n) : unLe (leBytes n v) = v := by
  rw [unLe_leBytes, Nat.mod_eq_of_lt h]

theorem leBytes_unLe (l : List Byte) : leBytes l.length (unLe l) = l := by
  induction l with
  | nil => rfl
  | cons b r ih =>
    have h1 : BitVec.ofNat 8 (b.toNat + 256 * unLe r) = b := by
      apply BitVec.eq_of_toNat_eq; simp [BitVec.toNat_ofNat]; omega
    have h2 : (b.toNat + 256 * unLe r) / 256 = unLe r := by
      have := b.isLt; omega
    simp only [List.length_cons, leBytes, unLe, h1, h2, ih]

theorem unLe_lt (l : List Byte) : unLe l < 256 ^ l.length := by
  induction l with
  | nil => simp [unLe]
  | cons b r ih =>
    have := b.isLt
    simp only [unLe, List.length_cons, Nat.pow_succ']
    omega

theorem unLe_append (l r : List Byte) : unLe (l ++ r) = unLe l + 256 ^ l.length * unLe r := by
  induction l with
  | nil => simp [unLe]
  | cons b t ih =>
    simp only [List.cons_append, unLe, ih, List.length_cons, Nat.pow_succ']
    rw [Nat.mul_add, Nat.mul_assoc]; omega

/-- Two sequences of one length that spell one number are one sequence. -/
theorem unLe_injective {l r : List Byte} (hl : l.length = r.length) (h : unLe l = unLe r) : l = r := by
  rw [← leBytes_unLe l, ← leBytes_unLe r, hl, h]

@[simp] theorem le16_length (v : U16) : (le16 v).length = 2 := by simp [le16]

@[simp] theorem le32_length (v : U32) : (le32 v).length = 4 := by simp [le32]

theorem ofNat_unLe_le16 (v : U16) : BitVec.ofNat 16 (unLe (le16 v)) = v := by
  rw [le16, unLe_leBytes_of_lt (by have := v.isLt; omega)]; simp

theorem ofNat_unLe_le32 (v : U32) : BitVec.ofNat 32 (unLe (le32 v)) = v := by
  rw [le32, unLe_leBytes_of_lt (by have := v.isLt; omega)]; simp

theorem unLe_le32 (v : U32) : unLe (le32 v) = v.toNat := by
  rw [le32, unLe_leBytes_of_lt (by have := v.isLt; omega)]

theorem le32_ofNat_unLe {l : List Byte} (h : l.length = 4) : le32 (BitVec.ofNat 32 (unLe l)) = l := by
  have := unLe_lt l
  rw [h] at this
  rw [le32, BitVec.toNat_ofNat, Nat.mod_eq_of_lt (by omega), ← h, leBytes_unLe]

theorem le16_ofNat_unLe {l : List Byte} (h : l.length = 2) : le16 (BitVec.ofNat 16 (unLe l)) = l := by
  have := unLe_lt l
  rw [h] at this
  rw [le16, BitVec.toNat_ofNat, Nat.mod_eq_of_lt (by omega), ← h, leBytes_unLe]

/-! ## The frame (R90, R91) -/

@[simp] theorem frameBody_length (cmd : Byte) (p : List Byte) : (frameBody cmd p).length = 5 + p.length := by
  simp [frameBody]; omega

@[simp] theorem encodeFrame_length (c : Config) (cmd : Byte) (p : List Byte) :
    (encodeFrame c cmd p).length = 11 + p.length := by
  simp [encodeFrame]; omega

theorem encodeFrame_ne_nil (c : Config) (cmd : Byte) (p : List Byte) : encodeFrame c cmd p ≠ [] := by
  simp [encodeFrame]

/-- Reading a whole frame at once gives back its code and payload. -/
theorem decodeFrame_encodeFrame (c : Config) (cmd : Byte) (p : List Byte) (hm : p.length ≤ c.maxPayload)
    (hp : p.length < 2 ^ 32) : decodeFrame c (encodeFrame c cmd p) = .ok (cmd, p) := by
  obtain ⟨l0, l1, l2, l3, hl⟩ : ∃ l0 l1 l2 l3, leBytes 4 p.length = [l0, l1, l2, l3] := ⟨_, _, _, _, rfl⟩
  have hu : unLe [l0, l1, l2, l3] = p.length := by rw [← hl, unLe_leBytes_of_lt (by omega)]
  have he : encodeFrame c cmd p =
      c.magic0 :: c.magic1 :: cmd :: l0 :: l1 :: l2 :: l3 :: (p ++ le32 (checksum32 c (frameBody cmd p))) := by
    simp [encodeFrame, frameBody, hl]
  have hb : frameBody cmd p = cmd :: l0 :: l1 :: l2 :: l3 :: p := by simp [frameBody, hl]
  rw [he]
  simp only [decodeFrame, hu]
  simp [Nat.not_lt.2 hm, unLe_le32, hb]

/-- What reads as a frame is the encoding of what it reads as. -/
theorem encodeFrame_of_decodeFrame {c : Config} {bytes : List Byte} {cmd : Byte} {p : List Byte}
    (h : decodeFrame c bytes = .ok (cmd, p)) :
    bytes = encodeFrame c cmd p ∧ p.length ≤ c.maxPayload ∧ p.length < 2 ^ 32 := by
  unfold decodeFrame at h
  split at h
  · rename_i m0 m1 cm l0 l1 l2 l3 rest
    split at h
    · cases h
    · rename_i hmag
      split at h
      · cases h
      · rename_i hmax
        split at h
        · cases h
        · rename_i hlen
          split at h
          · cases h
          · rename_i hck
            simp only [Except.ok.injEq, Prod.mk.injEq] at h
            obtain ⟨rfl, rfl⟩ := h
            have hn : (rest.take (unLe [l0, l1, l2, l3])).length = unLe [l0, l1, l2, l3] := by
              simp only [List.length_take]; omega
            have hlt := unLe_lt [l0, l1, l2, l3]
            have hle : leBytes 4 (unLe [l0, l1, l2, l3]) = [l0, l1, l2, l3] := leBytes_unLe [l0, l1, l2, l3]
            refine ⟨?_, by omega, by rw [hn]; simpa using hlt⟩
            have hd : (rest.drop (unLe [l0, l1, l2, l3])).length = 4 := by simp only [List.length_drop]; omega
            have hck' : rest.drop (unLe [l0, l1, l2, l3]) =
                le32 (checksum32 c (frameBody cm (rest.take (unLe [l0, l1, l2, l3])))) := by
              apply unLe_injective (by simp only [hd, le32_length])
              rw [unLe_le32]
              simpa [frameBody, hn, hle] using hck
            have hmag' : m0 = c.magic0 ∧ m1 = c.magic1 := by simpa using hmag
            rw [encodeFrame, ← hck', frameBody, hn, hle, hmag'.1, hmag'.2]
            simp
  · cases h

/-! ## Commands (R93, R100) -/

/-- Where the codes tell the commands apart, the code of a command names it. -/
theorem ofByte_code {c : Config} (h : c.commandsDistinct = true) (k : Cmd) : Cmd.ofByte c (k.code c) = some k := by
  simp only [Config.commandsDistinct, decide_eq_true_eq, List.nodup_cons, List.mem_cons, not_or, List.not_mem_nil] at h
  cases k <;> simp [Cmd.ofByte, Cmd.all, Cmd.code, h]

theorem code_of_ofByte {c : Config} {b : Byte} {k : Cmd} (h : Cmd.ofByte c b = some k) : k.code c = b := by
  simpa using List.find?_some h

/-- The codes of the three operations differ where the codes tell the commands apart. -/
theorem kinds_ne {c : Config} (h : c.commandsDistinct = true) :
    c.commands.read ≠ c.commands.write ∧ c.commands.read ≠ c.commands.erase ∧ c.commands.write ≠ c.commands.erase := by
  simp only [Config.commandsDistinct, decide_eq_true_eq, List.nodup_cons, List.mem_cons, not_or] at h
  exact ⟨h.2.1.1, h.2.1.2.1, h.2.2.1.1⟩

@[simp] theorem toBytes_length (r : Request) : r.toBytes.length = 11 := by simp [Request.toBytes]

theorem ofBytes_toBytes (r : Request) : Request.ofBytes r.toBytes = r := by
  obtain ⟨f, b, g, n⟩ := r
  obtain ⟨b0, b1, b2, b3, hb⟩ : ∃ b0 b1 b2 b3, le32 b = [b0, b1, b2, b3] := ⟨_, _, _, _, rfl⟩
  obtain ⟨g0, g1, hg⟩ : ∃ g0 g1, le16 g = [g0, g1] := ⟨_, _, rfl⟩
  obtain ⟨n0, n1, n2, n3, hn⟩ : ∃ n0 n1 n2 n3, le32 n = [n0, n1, n2, n3] := ⟨_, _, _, _, rfl⟩
  simp [Request.toBytes, Request.ofBytes, hb, hg, hn, slice]
  rw [← hb, ← hg, ← hn]
  exact ⟨ofNat_unLe_le32 b, ofNat_unLe_le16 g, ofNat_unLe_le32 n⟩

theorem toBytes_ofBytes {p : List Byte} (h : p.length = 11) : (Request.ofBytes p).toBytes = p := by
  match p, h with
  | [a, b, c, d, e, f, g, i, j, k, l], _ =>
    simp [Request.ofBytes, Request.toBytes, slice]
    rw [le32_ofNat_unLe rfl, le16_ofNat_unLe rfl, le32_ofNat_unLe rfl]
    rfl

theorem tokensOfBytes_bytesOfTokens (ts : List RunToken) : tokensOfBytes (bytesOfTokens ts) = some ts := by
  induction ts with
  | nil => rfl
  | cons t r ih => simp [bytesOfTokens, tokensOfBytes, ih]

theorem bytesOfTokens_of_tokensOfBytes (n : Nat) (p : List Byte) (hn : p.length ≤ n) (ts : List RunToken)
    (h : tokensOfBytes p = some ts) : bytesOfTokens ts = p := by
  induction n generalizing p ts with
  | zero =>
    have : p = [] := List.length_eq_zero_iff.1 (by omega)
    subst this
    simp only [tokensOfBytes, Option.some.injEq] at h
    subst h; rfl
  | succ n ih =>
    match p, h with
    | [], h => simp only [tokensOfBytes, Option.some.injEq] at h; subst h; rfl
    | [_], h => simp [tokensOfBytes] at h
    | v :: k :: r, h =>
      simp only [tokensOfBytes, Option.map_eq_some_iff] at h
      obtain ⟨us, hus, rfl⟩ := h
      simp [bytesOfTokens, ih r (by simp only [List.length_cons] at hn; omega) us hus]

end Sys2Proof

namespace Sys2Proof.Machine

/-! ## The byte-serial decoder (R146) -/

theorem rxBytes_append (c : Config) (d : Decoder) (a b : List Byte) :
    rxBytes c d (a ++ b) =
      ((rxBytes c d a).1 ++ (rxBytes c (rxBytes c d a).2 b).1, (rxBytes c (rxBytes c d a).2 b).2) := by
  induction a generalizing d with
  | nil => simp [rxBytes]
  | cons x r ih => simp [rxBytes, ih]

/-- Payload bytes pass without an answer until the last, after which the checksum is awaited. -/
theorem rxBytes_payload (c : Config) (p : List Byte) (d : Decoder) (hs : d.rxState = .payload)
    (hlen : d.rxBody.length + p.length = 5 + d.rxLen.toNat) (hp : p ≠ []) :
    rxBytes c d p = (List.replicate p.length .none, { d with rxState := .ck0, rxBody := d.rxBody ++ p }) := by
  induction p generalizing d with
  | nil => exact absurd rfl hp
  | cons b r ih =>
    by_cases hr : r = []
    · subst hr
      have : d.rxBody.length + 1 = 5 + d.rxLen.toNat := by simpa using hlen
      simp [rxBytes, rxByte, hs, this]
    · have hl : 0 < r.length := List.length_pos_iff.2 hr
      have hne : ¬(d.rxBody.length + 1 = 5 + d.rxLen.toNat) := by
        simp only [List.length_cons] at hlen; omega
      have h1 : rxByte c d b = (.none, { d with rxBody := d.rxBody ++ [b], rxState := .payload }) := by
        simp [rxByte, hs, hne]
      simp only [rxBytes, h1]
      rw [ih _ rfl (by simp only [List.length_append, List.length_cons, List.length_nil] at *; omega) hr]
      simp [List.replicate_succ]

end Sys2Proof.Machine
end

