-- ==== Sys2Proof/Laws/Memory.lean ====
section
/-! SUPPORT. The array: read after write, which cells an operation can change, and the canonical form that every memory
operation keeps. -/

namespace Sys2Proof.Machine

/-! ## Read after write -/

theorem read_write (m : Memory) (a a' : Nat) (b : Byte) :
    Memory.read (Memory.write m a b) a' = if a' = a then some b else Memory.read m a' := by
  induction m with
  | nil => by_cases h : a = a' <;> simp [Memory.write, Memory.read, h, eq_comm]
  | cons e r ih =>
    obtain ⟨k, c⟩ := e
    simp only [Memory.write]
    split
    · rename_i hlt
      by_cases h : a = a'
      · subst h; simp [Memory.read]
      · simp [Memory.read, h, Ne.symm h]
    · split
      · rename_i _ he
        subst he
        by_cases h : a = a'
        · simp [Memory.read, h]
        · simp [Memory.read, h, Ne.symm h]
      · rename_i _ hne
        by_cases hk : k = a'
        · subst hk; simp [Memory.read, Ne.symm hne]
        · simp [Memory.read, hk, ih]

theorem read_write_same (m : Memory) (a : Nat) (b : Byte) : Memory.read (Memory.write m a b) a = some b := by
  simp [read_write]

theorem read_write_other (m : Memory) {a a' : Nat} (b : Byte) (h : a' ≠ a) :
    Memory.read (Memory.write m a b) a' = Memory.read m a' := by
  simp [read_write, h]

theorem read_writeRun (bs : List Byte) (m : Memory) (a a' : Nat) :
    Memory.read (writeRun m a bs) a' = if a ≤ a' ∧ a' < a + bs.length then bs[a' - a]? else Memory.read m a' := by
  induction bs generalizing m a with
  | nil =>
    rw [writeRun, if_neg (by simp)]
  | cons b r ih =>
    simp only [writeRun, ih, read_write, List.length_cons]
    by_cases h0 : a' = a
    · subst h0
      simp
    · by_cases h1 : a + 1 ≤ a' ∧ a' < a + 1 + r.length
      · have h2 : a ≤ a' ∧ a' < a + (r.length + 1) := by omega
        have h3 : a' - a = (a' - (a + 1)) + 1 := by omega
        simp [h1, h2, h3]
      · have h2 : ¬(a ≤ a' ∧ a' < a + (r.length + 1)) := by omega
        rw [if_neg h1, if_neg h0, if_neg h2]

theorem read_writeRun_outside (bs : List Byte) (m : Memory) {a a' : Nat} (h : a' < a ∨ a + bs.length ≤ a') :
    Memory.read (writeRun m a bs) a' = Memory.read m a' := by
  rw [read_writeRun, if_neg (by omega)]

/-! ## Rows (R67 to R69) -/

@[simp] theorem readRow_length (m : Memory) (row n : Nat) : (readRow m row n).length = n := by simp [readRow]

theorem readRow_getElem? (m : Memory) (row n i : Nat) (h : i < n) :
    (readRow m row n)[i]? = some (cellByte m (cellAddr row i)) := by
  simp [readRow, h]

/-- What a program leaves in a cell of its row: the old byte AND the new one (R68). -/
theorem cellByte_programRow (m : Memory) (row : Nat) (d : List Byte) (i : Nat) (h : i < d.length) :
    cellByte (programRow m row d) (cellAddr row i) = cellByte m (cellAddr row i) &&& d[i] := by
  have hl : (List.zipWith (fun x y => x &&& y) (readRow m row d.length) d).length = d.length := by simp
  have hr : cellAddr row 0 ≤ cellAddr row i ∧ cellAddr row i < cellAddr row 0 + d.length := by
    unfold cellAddr; omega
  have hs : cellAddr row i - cellAddr row 0 = i := by unfold cellAddr; omega
  unfold programRow
  rw [cellByte, read_writeRun, hl, if_pos hr, hs]
  simp [h, readRow]

/-- A program changes no cell outside its row (R68). -/
theorem read_programRow_outside (m : Memory) (row : Nat) (d : List Byte) (a : Nat)
    (h : a < cellAddr row 0 ∨ cellAddr row 0 + d.length ≤ a) :
    Memory.read (programRow m row d) a = Memory.read m a := by
  refine read_writeRun_outside _ _ ?_
  simpa using h

/-- What an erase leaves in a cell of its rows: `0xFF` (R69). -/
theorem read_eraseRows (n : Nat) (m : Memory) (row u r i : Nat) (hi : i < u) (hu : u ≤ 65536) (hr : row ≤ r)
    (hn : r < row + n) : Memory.read (eraseRows m row n u) (cellAddr r i) = some erased := by
  induction n generalizing m row with
  | zero => omega
  | succ n ih =>
    rw [eraseRows]
    by_cases h : r = row
    · subst h
      have : ∀ k (m' : Memory) (q : Nat), r < q →
          Memory.read (eraseRows m' q k u) (cellAddr r i) = Memory.read m' (cellAddr r i) := by
        intro k
        induction k with
        | zero => intro m' q _; rfl
        | succ k ihk =>
          intro m' q hq
          rw [eraseRows, ihk _ _ (by omega)]
          exact read_writeRun_outside _ _ (by simp only [cellAddr]; omega)
      rw [this _ _ _ (by omega), read_writeRun]
      have h2 : cellAddr r 0 ≤ cellAddr r i ∧ cellAddr r i < cellAddr r 0 + (List.replicate u erased).length := by
        simp only [cellAddr, List.length_replicate]; omega
      have h3 : cellAddr r i - cellAddr r 0 = i := by simp only [cellAddr]; omega
      rw [if_pos h2, h3]
      simp [hi]
    · exact ih _ _ (by omega) (by omega)

/-- An erase changes no cell outside its rows (R69). -/
theorem read_eraseRows_outside (n : Nat) (m : Memory) (row u a : Nat)
    (h : ∀ r, row ≤ r → r < row + n → a < cellAddr r 0 ∨ cellAddr r 0 + u ≤ a) :
    Memory.read (eraseRows m row n u) a = Memory.read m a := by
  induction n generalizing m row with
  | zero => rfl
  | succ n ih =>
    rw [eraseRows, ih _ _ (fun r h1 h2 => h r (by omega) (by omega))]
    exact read_writeRun_outside _ _ (by simpa using h row (by omega) (by omega))

/-! ## The canonical form -/

/-- Every address listed is above `lo`. -/
theorem write_lower (m : Memory) (a : Nat) (b : Byte) (lo : Nat) (hlo : lo < a) (hm : ∀ e ∈ m, lo < e.1) :
    ∀ e ∈ Memory.write m a b, lo < e.1 := by
  induction m with
  | nil => simp [Memory.write, hlo]
  | cons e r ih =>
    obtain ⟨k, c⟩ := e
    simp only [List.mem_cons, forall_eq_or_imp] at hm
    simp only [Memory.write]
    split
    · simpa [hlo, hm.1] using hm.2
    · split
      · simpa [hlo] using hm.2
      · simpa [hm.1] using ih hm.2

theorem write_wf (m : Memory) (a : Nat) (b : Byte) (h : Memory.wf m = true) : Memory.wf (Memory.write m a b) = true := by
  simp only [Memory.wf, decide_eq_true_eq] at *
  induction m with
  | nil => simp [Memory.write]
  | cons e r ih =>
    obtain ⟨k, c⟩ := e
    obtain ⟨h1, h2⟩ := List.pairwise_cons.1 h
    simp only [Memory.write]
    split
    · rename_i hlt
      refine List.pairwise_cons.2 ⟨?_, h⟩
      intro x hx
      rcases List.mem_cons.1 hx with rfl | hx
      · exact hlt
      · exact Nat.lt_trans hlt (h1 x hx)
    · split
      · rename_i _ he
        subst he
        exact List.pairwise_cons.2 ⟨h1, h2⟩
      · exact List.pairwise_cons.2 ⟨write_lower r a b k (by omega) h1, ih h2⟩

theorem writeRun_wf (bs : List Byte) (m : Memory) (a : Nat) (h : Memory.wf m = true) :
    Memory.wf (writeRun m a bs) = true := by
  induction bs generalizing m a with
  | nil => exact h
  | cons b r ih => exact ih _ _ (write_wf m a b h)

theorem writeCells_wf (cs : List Host.Cell) (m : Memory) (h : Memory.wf m = true) : Memory.wf (writeCells m cs) = true := by
  induction cs generalizing m with
  | nil => exact h
  | cons c r ih => exact ih _ (write_wf m c.1 c.2 h)

theorem programRow_wf (m : Memory) (row : Nat) (d : List Byte) (h : Memory.wf m = true) :
    Memory.wf (programRow m row d) = true := writeRun_wf _ _ _ h

theorem eraseRows_wf (n : Nat) (m : Memory) (row u : Nat) (h : Memory.wf m = true) :
    Memory.wf (eraseRows m row n u) = true := by
  induction n generalizing m row with
  | zero => exact h
  | succ n ih => exact ih _ _ (writeRun_wf _ _ _ h)

end Sys2Proof.Machine
end

