-- ==== Sys2Proof/Laws/State.lean ====
section
/-! SUPPORT. One lemma per field per update of the state, so that no later proof unfolds a record update. -/

namespace Sys2Proof.Machine

/-! ## `setArr` -/

@[simp] theorem setArr_cfg (s : State) (m : Memory) : (s.setArr m).cfg = s.cfg := rfl
@[simp] theorem setArr_seq (s : State) (m : Memory) : (s.setArr m).seq = s.seq := rfl
@[simp] theorem setArr_op (s : State) (m : Memory) : (s.setArr m).op = s.op := rfl
@[simp] theorem setArr_dec (s : State) (m : Memory) : (s.setArr m).dec = s.dec := rfl
@[simp] theorem setArr_ses (s : State) (m : Memory) : (s.setArr m).ses = s.ses := rfl
@[simp] theorem setArr_cp (s : State) (m : Memory) : (s.setArr m).cp = s.cp := rfl
@[simp] theorem setArr_pwr (s : State) (m : Memory) : (s.setArr m).pwr = s.pwr := rfl
@[simp] theorem setArr_rxq (s : State) (m : Memory) : (s.setArr m).rxq = s.rxq := rfl
@[simp] theorem setArr_tx (s : State) (m : Memory) : (s.setArr m).tx = s.tx := rfl
@[simp] theorem setArr_die (s : State) (m : Memory) : (s.setArr m).die = { s.die with arr := m } := rfl
@[simp] theorem setArr_trace (s : State) (m : Memory) : (s.setArr m).trace = s.trace := rfl
@[simp] theorem setArr_env (s : State) (m : Memory) : (s.setArr m).env = s.env := rfl

/-! ## `setLatch` -/

@[simp] theorem setLatch_cfg (s : State) (l : Latch) : (s.setLatch l).cfg = s.cfg := rfl
@[simp] theorem setLatch_seq (s : State) (l : Latch) : (s.setLatch l).seq = s.seq := rfl
@[simp] theorem setLatch_op (s : State) (l : Latch) : (s.setLatch l).op = s.op := rfl
@[simp] theorem setLatch_dec (s : State) (l : Latch) : (s.setLatch l).dec = s.dec := rfl
@[simp] theorem setLatch_ses (s : State) (l : Latch) : (s.setLatch l).ses = s.ses := rfl
@[simp] theorem setLatch_cp (s : State) (l : Latch) : (s.setLatch l).cp = s.cp := rfl
@[simp] theorem setLatch_pwr (s : State) (l : Latch) : (s.setLatch l).pwr = s.pwr := rfl
@[simp] theorem setLatch_rxq (s : State) (l : Latch) : (s.setLatch l).rxq = s.rxq := rfl
@[simp] theorem setLatch_tx (s : State) (l : Latch) : (s.setLatch l).tx = s.tx := rfl
@[simp] theorem setLatch_die (s : State) (l : Latch) : (s.setLatch l).die = { s.die with latch := l } := rfl
@[simp] theorem setLatch_trace (s : State) (l : Latch) : (s.setLatch l).trace = s.trace := rfl
@[simp] theorem setLatch_env (s : State) (l : Latch) : (s.setLatch l).env = s.env := rfl

/-! ## `setStatus` -/

@[simp] theorem setStatus_cfg (s : State) (b : Byte) : (s.setStatus b).cfg = s.cfg := rfl
@[simp] theorem setStatus_seq (s : State) (b : Byte) : (s.setStatus b).seq = s.seq := rfl
@[simp] theorem setStatus_op (s : State) (b : Byte) : (s.setStatus b).op = s.op := rfl
@[simp] theorem setStatus_dec (s : State) (b : Byte) : (s.setStatus b).dec = s.dec := rfl
@[simp] theorem setStatus_ses (s : State) (b : Byte) : (s.setStatus b).ses = s.ses := rfl
@[simp] theorem setStatus_cp (s : State) (b : Byte) : (s.setStatus b).cp = s.cp := rfl
@[simp] theorem setStatus_pwr (s : State) (b : Byte) : (s.setStatus b).pwr = s.pwr := rfl
@[simp] theorem setStatus_rxq (s : State) (b : Byte) : (s.setStatus b).rxq = s.rxq := rfl
@[simp] theorem setStatus_tx (s : State) (b : Byte) : (s.setStatus b).tx = s.tx := rfl
@[simp] theorem setStatus_die (s : State) (b : Byte) : (s.setStatus b).die = { s.die with status := b } := rfl
@[simp] theorem setStatus_trace (s : State) (b : Byte) : (s.setStatus b).trace = s.trace := rfl
@[simp] theorem setStatus_env (s : State) (b : Byte) : (s.setStatus b).env = s.env := rfl

/-! ## `cycles` -/

@[simp] theorem cycles_cfg (cs : List BusCycle) (s : State) : (cycles cs s).cfg = s.cfg := rfl
@[simp] theorem cycles_seq (cs : List BusCycle) (s : State) : (cycles cs s).seq = s.seq := rfl
@[simp] theorem cycles_op (cs : List BusCycle) (s : State) : (cycles cs s).op = s.op := rfl
@[simp] theorem cycles_dec (cs : List BusCycle) (s : State) : (cycles cs s).dec = s.dec := rfl
@[simp] theorem cycles_ses (cs : List BusCycle) (s : State) : (cycles cs s).ses = s.ses := rfl
@[simp] theorem cycles_cp (cs : List BusCycle) (s : State) : (cycles cs s).cp = s.cp := rfl
@[simp] theorem cycles_pwr (cs : List BusCycle) (s : State) : (cycles cs s).pwr = s.pwr := rfl
@[simp] theorem cycles_rxq (cs : List BusCycle) (s : State) : (cycles cs s).rxq = s.rxq := rfl
@[simp] theorem cycles_tx (cs : List BusCycle) (s : State) : (cycles cs s).tx = s.tx := rfl
@[simp] theorem cycles_die (cs : List BusCycle) (s : State) : (cycles cs s).die = s.die := rfl
@[simp] theorem cycles_trace (cs : List BusCycle) (s : State) : (cycles cs s).trace = s.trace ++ cs := rfl
@[simp] theorem cycles_env (cs : List BusCycle) (s : State) : (cycles cs s).env = s.env := rfl

/-! ## `sendCommand` -/

@[simp] theorem sendCommand_cfg (b : Byte) (s : State) : (sendCommand b s).cfg = s.cfg := rfl
@[simp] theorem sendCommand_seq (b : Byte) (s : State) : (sendCommand b s).seq = s.seq := rfl
@[simp] theorem sendCommand_op (b : Byte) (s : State) : (sendCommand b s).op = s.op := rfl
@[simp] theorem sendCommand_dec (b : Byte) (s : State) : (sendCommand b s).dec = s.dec := rfl
@[simp] theorem sendCommand_ses (b : Byte) (s : State) : (sendCommand b s).ses = s.ses := rfl
@[simp] theorem sendCommand_cp (b : Byte) (s : State) : (sendCommand b s).cp = s.cp := rfl
@[simp] theorem sendCommand_pwr (b : Byte) (s : State) : (sendCommand b s).pwr = s.pwr := rfl
@[simp] theorem sendCommand_rxq (b : Byte) (s : State) : (sendCommand b s).rxq = s.rxq := rfl
@[simp] theorem sendCommand_tx (b : Byte) (s : State) : (sendCommand b s).tx = s.tx := rfl
@[simp] theorem sendCommand_die (b : Byte) (s : State) : (sendCommand b s).die = s.die := rfl
@[simp] theorem sendCommand_trace (b : Byte) (s : State) : (sendCommand b s).trace = s.trace ++ [.cmd b] := rfl
@[simp] theorem sendCommand_env (b : Byte) (s : State) : (sendCommand b s).env = s.env := rfl

/-! ## `sendAddress` -/

@[simp] theorem sendAddress_cfg (bs : List Byte) (s : State) : (sendAddress bs s).cfg = s.cfg := rfl
@[simp] theorem sendAddress_seq (bs : List Byte) (s : State) : (sendAddress bs s).seq = s.seq := rfl
@[simp] theorem sendAddress_op (bs : List Byte) (s : State) : (sendAddress bs s).op = s.op := rfl
@[simp] theorem sendAddress_dec (bs : List Byte) (s : State) : (sendAddress bs s).dec = s.dec := rfl
@[simp] theorem sendAddress_ses (bs : List Byte) (s : State) : (sendAddress bs s).ses = s.ses := rfl
@[simp] theorem sendAddress_cp (bs : List Byte) (s : State) : (sendAddress bs s).cp = s.cp := rfl
@[simp] theorem sendAddress_pwr (bs : List Byte) (s : State) : (sendAddress bs s).pwr = s.pwr := rfl
@[simp] theorem sendAddress_rxq (bs : List Byte) (s : State) : (sendAddress bs s).rxq = s.rxq := rfl
@[simp] theorem sendAddress_tx (bs : List Byte) (s : State) : (sendAddress bs s).tx = s.tx := rfl
@[simp] theorem sendAddress_die (bs : List Byte) (s : State) : (sendAddress bs s).die = s.die := rfl
@[simp] theorem sendAddress_trace (bs : List Byte) (s : State) : (sendAddress bs s).trace = s.trace ++ bs.map .addr := rfl
@[simp] theorem sendAddress_env (bs : List Byte) (s : State) : (sendAddress bs s).env = s.env := rfl

/-! ## `emit` -/

@[simp] theorem emit_cfg (i : Instr) (s : State) : (emit i s).cfg = s.cfg := rfl
@[simp] theorem emit_seq (i : Instr) (s : State) : (emit i s).seq = s.seq := rfl
@[simp] theorem emit_op (i : Instr) (s : State) : (emit i s).op = s.op := rfl
@[simp] theorem emit_dec (i : Instr) (s : State) : (emit i s).dec = s.dec := rfl
@[simp] theorem emit_ses (i : Instr) (s : State) : (emit i s).ses = s.ses := rfl
@[simp] theorem emit_cp (i : Instr) (s : State) : (emit i s).cp = s.cp := rfl
@[simp] theorem emit_pwr (i : Instr) (s : State) : (emit i s).pwr = s.pwr := rfl
@[simp] theorem emit_rxq (i : Instr) (s : State) : (emit i s).rxq = s.rxq := rfl
@[simp] theorem emit_tx (i : Instr) (s : State) : (emit i s).tx = s.tx ++ encode s.cfg i := rfl
@[simp] theorem emit_die (i : Instr) (s : State) : (emit i s).die = s.die := rfl
@[simp] theorem emit_trace (i : Instr) (s : State) : (emit i s).trace = s.trace := rfl
@[simp] theorem emit_env (i : Instr) (s : State) : (emit i s).env = s.env := rfl

/-! ## `reject` -/

@[simp] theorem reject_cfg (c : Cause) (x : Byte) (s : State) : (reject c x s).cfg = s.cfg := rfl
@[simp] theorem reject_seq (c : Cause) (x : Byte) (s : State) : (reject c x s).seq = s.seq := rfl
@[simp] theorem reject_op (c : Cause) (x : Byte) (s : State) : (reject c x s).op = s.op := rfl
@[simp] theorem reject_dec (c : Cause) (x : Byte) (s : State) : (reject c x s).dec = s.dec := rfl
@[simp] theorem reject_ses (c : Cause) (x : Byte) (s : State) : (reject c x s).ses = s.ses := rfl
@[simp] theorem reject_cp (c : Cause) (x : Byte) (s : State) : (reject c x s).cp = s.cp := rfl
@[simp] theorem reject_pwr (c : Cause) (x : Byte) (s : State) : (reject c x s).pwr = s.pwr := rfl
@[simp] theorem reject_rxq (c : Cause) (x : Byte) (s : State) : (reject c x s).rxq = s.rxq := rfl
@[simp] theorem reject_tx (c : Cause) (x : Byte) (s : State) : (reject c x s).tx = s.tx ++ encode s.cfg (.rspFailed c.code x) := rfl
@[simp] theorem reject_die (c : Cause) (x : Byte) (s : State) : (reject c x s).die = s.die := rfl
@[simp] theorem reject_trace (c : Cause) (x : Byte) (s : State) : (reject c x s).trace = s.trace := rfl
@[simp] theorem reject_env (c : Cause) (x : Byte) (s : State) : (reject c x s).env = s.env := rfl

/-! ## `endWith` -/

@[simp] theorem endWith_cfg (q : Seq) (c : Cause) (s : State) : (endWith q c s).cfg = s.cfg := rfl
@[simp] theorem endWith_seq (q : Seq) (c : Cause) (s : State) : (endWith q c s).seq = q := rfl
@[simp] theorem endWith_op (q : Seq) (c : Cause) (s : State) : (endWith q c s).op = { s.op with cause := c.code } := rfl
@[simp] theorem endWith_dec (q : Seq) (c : Cause) (s : State) : (endWith q c s).dec = s.dec := rfl
@[simp] theorem endWith_ses (q : Seq) (c : Cause) (s : State) : (endWith q c s).ses = s.ses := rfl
@[simp] theorem endWith_cp (q : Seq) (c : Cause) (s : State) : (endWith q c s).cp = s.cp := rfl
@[simp] theorem endWith_pwr (q : Seq) (c : Cause) (s : State) : (endWith q c s).pwr = s.pwr := rfl
@[simp] theorem endWith_rxq (q : Seq) (c : Cause) (s : State) : (endWith q c s).rxq = s.rxq := rfl
@[simp] theorem endWith_tx (q : Seq) (c : Cause) (s : State) : (endWith q c s).tx = s.tx ++ encode s.cfg (.rspFailed c.code s.op.opKind) := rfl
@[simp] theorem endWith_die (q : Seq) (c : Cause) (s : State) : (endWith q c s).die = s.die := rfl
@[simp] theorem endWith_trace (q : Seq) (c : Cause) (s : State) : (endWith q c s).trace = s.trace := rfl
@[simp] theorem endWith_env (q : Seq) (c : Cause) (s : State) : (endWith q c s).env = s.env := rfl

/-! ## `fail` -/

@[simp] theorem fail_cfg (c : Cause) (s : State) : (fail c s).cfg = s.cfg := rfl
@[simp] theorem fail_seq (c : Cause) (s : State) : (fail c s).seq = .failed := rfl
@[simp] theorem fail_op (c : Cause) (s : State) : (fail c s).op = { s.op with cause := c.code } := rfl
@[simp] theorem fail_dec (c : Cause) (s : State) : (fail c s).dec = s.dec := rfl
@[simp] theorem fail_ses (c : Cause) (s : State) : (fail c s).ses = s.ses := rfl
@[simp] theorem fail_cp (c : Cause) (s : State) : (fail c s).cp = s.cp := rfl
@[simp] theorem fail_pwr (c : Cause) (s : State) : (fail c s).pwr = s.pwr := rfl
@[simp] theorem fail_rxq (c : Cause) (s : State) : (fail c s).rxq = s.rxq := rfl
@[simp] theorem fail_tx (c : Cause) (s : State) : (fail c s).tx = s.tx ++ encode s.cfg (.rspFailed c.code s.op.opKind) := rfl
@[simp] theorem fail_die (c : Cause) (s : State) : (fail c s).die = s.die := rfl
@[simp] theorem fail_trace (c : Cause) (s : State) : (fail c s).trace = s.trace := rfl
@[simp] theorem fail_env (c : Cause) (s : State) : (fail c s).env = s.env := rfl

/-! ## `setTiming` -/

@[simp] theorem setTiming_cfg (t : Timing) (s : State) : (setTiming t s).cfg = s.cfg := rfl
@[simp] theorem setTiming_seq (t : Timing) (s : State) : (setTiming t s).seq = s.seq := rfl
@[simp] theorem setTiming_op (t : Timing) (s : State) : (setTiming t s).op = s.op := rfl
@[simp] theorem setTiming_dec (t : Timing) (s : State) : (setTiming t s).dec = s.dec := rfl
@[simp] theorem setTiming_ses (t : Timing) (s : State) : (setTiming t s).ses = { s.ses with timing := t } := rfl
@[simp] theorem setTiming_cp (t : Timing) (s : State) : (setTiming t s).cp = s.cp := rfl
@[simp] theorem setTiming_pwr (t : Timing) (s : State) : (setTiming t s).pwr = s.pwr := rfl
@[simp] theorem setTiming_rxq (t : Timing) (s : State) : (setTiming t s).rxq = s.rxq := rfl
@[simp] theorem setTiming_tx (t : Timing) (s : State) : (setTiming t s).tx = s.tx := rfl
@[simp] theorem setTiming_die (t : Timing) (s : State) : (setTiming t s).die = s.die := rfl
@[simp] theorem setTiming_trace (t : Timing) (s : State) : (setTiming t s).trace = s.trace := rfl
@[simp] theorem setTiming_env (t : Timing) (s : State) : (setTiming t s).env = s.env := rfl

/-! ## `popTurn` -/

@[simp] theorem popTurn_cfg (s : State) : (popTurn s).cfg = s.cfg := rfl
@[simp] theorem popTurn_seq (s : State) : (popTurn s).seq = s.seq := rfl
@[simp] theorem popTurn_op (s : State) : (popTurn s).op = s.op := rfl
@[simp] theorem popTurn_dec (s : State) : (popTurn s).dec = s.dec := rfl
@[simp] theorem popTurn_ses (s : State) : (popTurn s).ses = s.ses := rfl
@[simp] theorem popTurn_cp (s : State) : (popTurn s).cp = s.cp := rfl
@[simp] theorem popTurn_pwr (s : State) : (popTurn s).pwr = s.pwr := rfl
@[simp] theorem popTurn_rxq (s : State) : (popTurn s).rxq = s.rxq := rfl
@[simp] theorem popTurn_tx (s : State) : (popTurn s).tx = s.tx := rfl
@[simp] theorem popTurn_die (s : State) : (popTurn s).die = s.die := rfl
@[simp] theorem popTurn_trace (s : State) : (popTurn s).trace = s.trace := rfl
@[simp] theorem popTurn_env (s : State) : (popTurn s).env = { s.env with schedule := s.env.schedule.tail } := rfl

/-! ## `emitProgress` -/

@[simp] theorem emitProgress_cfg (s : State) : (emitProgress s).cfg = s.cfg := rfl
@[simp] theorem emitProgress_seq (s : State) : (emitProgress s).seq = s.seq := rfl
@[simp] theorem emitProgress_op (s : State) : (emitProgress s).op = s.op := rfl
@[simp] theorem emitProgress_dec (s : State) : (emitProgress s).dec = s.dec := rfl
@[simp] theorem emitProgress_ses (s : State) : (emitProgress s).ses = s.ses := rfl
@[simp] theorem emitProgress_cp (s : State) : (emitProgress s).cp = s.cp := rfl
@[simp] theorem emitProgress_pwr (s : State) : (emitProgress s).pwr = s.pwr := rfl
@[simp] theorem emitProgress_rxq (s : State) : (emitProgress s).rxq = s.rxq := rfl
@[simp] theorem emitProgress_tx (s : State) : (emitProgress s).tx = s.tx ++ encode s.cfg (.rspProgress (percent s.op.opDone s.op.opTotal) s.op.opDone s.op.opTotal) := rfl
@[simp] theorem emitProgress_die (s : State) : (emitProgress s).die = s.die := rfl
@[simp] theorem emitProgress_trace (s : State) : (emitProgress s).trace = s.trace := rfl
@[simp] theorem emitProgress_env (s : State) : (emitProgress s).env = s.env := rfl

/-! ## `emitComplete` -/

@[simp] theorem emitComplete_cfg (s : State) : (emitComplete s).cfg = s.cfg := rfl
@[simp] theorem emitComplete_seq (s : State) : (emitComplete s).seq = s.seq := rfl
@[simp] theorem emitComplete_op (s : State) : (emitComplete s).op = s.op := rfl
@[simp] theorem emitComplete_dec (s : State) : (emitComplete s).dec = s.dec := rfl
@[simp] theorem emitComplete_ses (s : State) : (emitComplete s).ses = s.ses := rfl
@[simp] theorem emitComplete_cp (s : State) : (emitComplete s).cp = s.cp := rfl
@[simp] theorem emitComplete_pwr (s : State) : (emitComplete s).pwr = s.pwr := rfl
@[simp] theorem emitComplete_rxq (s : State) : (emitComplete s).rxq = s.rxq := rfl
@[simp] theorem emitComplete_tx (s : State) : (emitComplete s).tx = s.tx ++ encode s.cfg (.rspComplete s.op.opKind s.op.opDone) := rfl
@[simp] theorem emitComplete_die (s : State) : (emitComplete s).die = s.die := rfl
@[simp] theorem emitComplete_trace (s : State) : (emitComplete s).trace = s.trace := rfl
@[simp] theorem emitComplete_env (s : State) : (emitComplete s).env = s.env := rfl

/-! ## `updateChunk` -/

@[simp] theorem updateChunk_cfg (p : Profile) (x : List Byte) (s : State) : (updateChunk p x s).cfg = s.cfg := rfl
@[simp] theorem updateChunk_seq (p : Profile) (x : List Byte) (s : State) : (updateChunk p x s).seq = s.seq := rfl
@[simp] theorem updateChunk_op (p : Profile) (x : List Byte) (s : State) : (updateChunk p x s).op = { s.op with lastHash := chunkHash s.cfg x, bytesDone := s.op.bytesDone + BitVec.ofNat 64 p.unitSize } := rfl
@[simp] theorem updateChunk_dec (p : Profile) (x : List Byte) (s : State) : (updateChunk p x s).dec = s.dec := rfl
@[simp] theorem updateChunk_ses (p : Profile) (x : List Byte) (s : State) : (updateChunk p x s).ses = s.ses := rfl
@[simp] theorem updateChunk_cp (p : Profile) (x : List Byte) (s : State) : (updateChunk p x s).cp = s.cp := rfl
@[simp] theorem updateChunk_pwr (p : Profile) (x : List Byte) (s : State) : (updateChunk p x s).pwr = s.pwr := rfl
@[simp] theorem updateChunk_rxq (p : Profile) (x : List Byte) (s : State) : (updateChunk p x s).rxq = s.rxq := rfl
@[simp] theorem updateChunk_tx (p : Profile) (x : List Byte) (s : State) : (updateChunk p x s).tx = s.tx := rfl
@[simp] theorem updateChunk_die (p : Profile) (x : List Byte) (s : State) : (updateChunk p x s).die = s.die := rfl
@[simp] theorem updateChunk_trace (p : Profile) (x : List Byte) (s : State) : (updateChunk p x s).trace = s.trace := rfl
@[simp] theorem updateChunk_env (p : Profile) (x : List Byte) (s : State) : (updateChunk p x s).env = s.env := rfl

/-! ## `strayChange` -/

@[simp] theorem strayChange_cfg (s : State) : (strayChange s).cfg = s.cfg := rfl
@[simp] theorem strayChange_seq (s : State) : (strayChange s).seq = s.seq := rfl
@[simp] theorem strayChange_op (s : State) : (strayChange s).op = s.op := rfl
@[simp] theorem strayChange_dec (s : State) : (strayChange s).dec = s.dec := rfl
@[simp] theorem strayChange_ses (s : State) : (strayChange s).ses = s.ses := rfl
@[simp] theorem strayChange_cp (s : State) : (strayChange s).cp = s.cp := rfl
@[simp] theorem strayChange_pwr (s : State) : (strayChange s).pwr = s.pwr := rfl
@[simp] theorem strayChange_rxq (s : State) : (strayChange s).rxq = s.rxq := rfl
@[simp] theorem strayChange_tx (s : State) : (strayChange s).tx = s.tx := rfl
@[simp] theorem strayChange_die (s : State) : (strayChange s).die = { s.die with arr := writeCells s.die.arr (Config.strayChange s.env.drawn) } := rfl
@[simp] theorem strayChange_trace (s : State) : (strayChange s).trace = s.trace := rfl
@[simp] theorem strayChange_env (s : State) : (strayChange s).env = { s.env with drawn := s.env.drawn + 1 } := rfl

end Sys2Proof.Machine
end

