-- ==== Sys2Proof/Laws/Bus.lean ====
section
/-! SUPPORT. Draws and the bus: what each operation of Machine/Bus.lean can do, said once. -/

namespace Sys2Proof.Machine

/-! ## Draws (R10) -/

theorem draw_cons {s : State} {d : Nat} {r : List Nat} (h : s.env.draws = d :: r) :
    draw s = (d, { s with env := { s.env with draws := r } }) := by
  simp [draw, h]

theorem draw_nil {s : State} (h : s.env.draws = []) :
    draw s = (Config.freeDraw s.env.drawn, { s with env := { s.env with drawn := s.env.drawn + 1 } }) := by
  simp [draw, h]

/-- A draw changes only which answers are left. -/
theorem draw_frame (s : State) :
    (draw s).2 =
      { s with env := { s.env with draws := (draw s).2.env.draws, drawn := (draw s).2.env.drawn } } := by
  cases h : s.env.draws with
  | nil => simp [draw_nil h]
  | cons d r => simp [draw_cons h]

@[simp] theorem draw_cfg (s : State) : (draw s).2.cfg = s.cfg := by rw [draw_frame]
@[simp] theorem draw_seq (s : State) : (draw s).2.seq = s.seq := by rw [draw_frame]
@[simp] theorem draw_op (s : State) : (draw s).2.op = s.op := by rw [draw_frame]
@[simp] theorem draw_dec (s : State) : (draw s).2.dec = s.dec := by rw [draw_frame]
@[simp] theorem draw_ses (s : State) : (draw s).2.ses = s.ses := by rw [draw_frame]
@[simp] theorem draw_cp (s : State) : (draw s).2.cp = s.cp := by rw [draw_frame]
@[simp] theorem draw_pwr (s : State) : (draw s).2.pwr = s.pwr := by rw [draw_frame]
@[simp] theorem draw_rxq (s : State) : (draw s).2.rxq = s.rxq := by rw [draw_frame]
@[simp] theorem draw_tx (s : State) : (draw s).2.tx = s.tx := by rw [draw_frame]
@[simp] theorem draw_die (s : State) : (draw s).2.die = s.die := by rw [draw_frame]
@[simp] theorem draw_trace (s : State) : (draw s).2.trace = s.trace := by rw [draw_frame]
@[simp] theorem draw_schedule (s : State) : (draw s).2.env.schedule = s.env.schedule := by rw [draw_frame]
@[simp] theorem draw_power (s : State) : (draw s).2.env.power = s.env.power := by rw [draw_frame]

@[simp] theorem drawBytes_length (n : Nat) (s : State) : (drawBytes n s).1.length = n := by
  induction n generalizing s with
  | zero => rfl
  | succ n ih => simp [drawBytes, ih]

/-- Drawing bytes changes only which answers are left. -/
theorem drawBytes_frame (n : Nat) (s : State) :
    (drawBytes n s).2 =
      { s with env := { s.env with draws := (drawBytes n s).2.env.draws, drawn := (drawBytes n s).2.env.drawn } } := by
  induction n generalizing s with
  | zero => rfl
  | succ n ih =>
    simp only [drawBytes]
    rw [ih, draw_frame s]

@[simp] theorem drawBytes_die (n : Nat) (s : State) : (drawBytes n s).2.die = s.die := by rw [drawBytes_frame]
@[simp] theorem drawBytes_cfg (n : Nat) (s : State) : (drawBytes n s).2.cfg = s.cfg := by rw [drawBytes_frame]
@[simp] theorem drawBytes_power (n : Nat) (s : State) : (drawBytes n s).2.env.power = s.env.power := by rw [drawBytes_frame]

/-! ## `BusOnly` -/

theorem BusOnly.refl (s : State) : BusOnly s s := ⟨rfl, rfl, rfl, [], by simp⟩

theorem BusOnly.trans {s t u : State} (h : BusOnly s t) (k : BusOnly t u) : BusOnly s u := by
  obtain ⟨cs, hc⟩ := h.traceGrows
  obtain ⟨ds, hd⟩ := k.traceGrows
  refine ⟨?_, ?_, k.schedule.trans h.schedule, cs ++ ds, by rw [hd, hc, List.append_assoc]⟩
  · rw [k.registers, h.registers]
  · rw [k.dieFixed, h.dieFixed]

theorem busOnly_draw (s : State) : BusOnly s (draw s).2 := by
  refine ⟨?_, by simp, by simp, [], by simp⟩
  simp only [draw_die, draw_trace]; rw [draw_frame]

theorem busOnly_drawBytes (n : Nat) (s : State) : BusOnly s (drawBytes n s).2 := by
  induction n generalizing s with
  | zero => exact BusOnly.refl s
  | succ n ih => exact (busOnly_draw s).trans (ih _)

theorem busOnly_cycles (cs : List BusCycle) (s : State) : BusOnly s (cycles cs s) := ⟨rfl, rfl, rfl, cs, rfl⟩

theorem busOnly_setArr (s : State) (m : Memory) : BusOnly s (s.setArr m) := ⟨rfl, rfl, rfl, [], by simp⟩

theorem busOnly_setLatch (s : State) (l : Latch) : BusOnly s (s.setLatch l) := ⟨rfl, rfl, rfl, [], by simp⟩

theorem busOnly_setStatus (s : State) (b : Byte) : BusOnly s (s.setStatus b) := ⟨rfl, rfl, rfl, [], by simp⟩

theorem busOnly_strayChange (s : State) : BusOnly s (strayChange s) := ⟨rfl, rfl, rfl, [], by simp⟩

theorem busOnly_power (s : State) (q : Supply) : BusOnly s { s with env := { s.env with power := q } } :=
  ⟨rfl, rfl, rfl, [], by simp⟩

theorem busOnly_tearRows (n row u : Nat) (s : State) : BusOnly s (tearRows row n u s) := by
  induction n generalizing row s with
  | zero => exact BusOnly.refl s
  | succ n ih => exact ((busOnly_drawBytes u s).trans (busOnly_setArr _ _)).trans (ih _ _)

theorem busOnly_arrayEffect {done torn : State → State} (hd : ∀ s, BusOnly s (done s)) (ht : ∀ s, BusOnly s (torn s))
    (s : State) : BusOnly s (arrayEffect done torn s) := by
  unfold arrayEffect
  split
  · exact hd s
  · exact (busOnly_power _ _).trans (hd _)
  · exact (busOnly_power _ _).trans (ht _)
  · exact busOnly_power _ _
  · exact BusOnly.refl s

theorem busOnly_dieRead (l : Latch) (n : Nat) (s : State) : BusOnly s (dieRead l n s).2 := by
  unfold dieRead
  split
  · split
    · exact BusOnly.refl s
    · exact busOnly_drawBytes n s
  all_goals exact busOnly_drawBytes n s

theorem busOnly_dieProgram (l : Latch) (passed : Bool) (s : State) : BusOnly s (dieProgram l passed s) := by
  unfold dieProgram
  split
  · split
    · refine busOnly_arrayEffect (fun t => ?_) (busOnly_tearRows _ _ _) s
      split
      · exact busOnly_setArr _ _
      · exact busOnly_tearRows _ _ _ _
    · exact busOnly_arrayEffect busOnly_strayChange busOnly_strayChange s
  all_goals exact busOnly_arrayEffect busOnly_strayChange busOnly_strayChange s

theorem busOnly_dieErase (l : Latch) (passed : Bool) (s : State) : BusOnly s (dieErase l passed s) := by
  unfold dieErase
  split
  · split
    · refine busOnly_arrayEffect (fun t => ?_) (busOnly_tearRows _ _ _) s
      split
      · exact busOnly_setArr _ _
      · exact busOnly_tearRows _ _ _ _
    · exact busOnly_arrayEffect busOnly_strayChange busOnly_strayChange s
  all_goals exact busOnly_arrayEffect busOnly_strayChange busOnly_strayChange s

/-! ## Readiness (R190) -/

/-- The samples taken: `k` busy ones and a ready one, or `t` busy ones. -/
theorem rbSamples_eq (k t : Nat) :
    rbSamples k t = if k < t then List.replicate k false ++ [true] else List.replicate t false := by
  induction t generalizing k with
  | zero => cases k <;> rfl
  | succ t ih =>
    cases k with
    | zero => simp [rbSamples]
    | succ k =>
      simp only [rbSamples, ih, Nat.add_lt_add_iff_right]
      split <;> simp [List.replicate_succ]

@[simp] theorem waitReady_fst (t : Nat) (s : State) : (waitReady t s).1 = decide ((draw s).1 < t) := rfl

@[simp] theorem waitReady_snd (t : Nat) (s : State) :
    (waitReady t s).2 = cycles ((rbSamples (draw s).1 t).map .rb) (draw s).2 := rfl

theorem busOnly_waitReady (t : Nat) (s : State) : BusOnly s (waitReady t s).2 :=
  (busOnly_draw s).trans (busOnly_cycles _ _)

/-! ## The bus operations -/

theorem busOnly_sendCommand (b : Byte) (s : State) : BusOnly s (sendCommand b s) := busOnly_cycles _ s

theorem busOnly_sendAddress (bs : List Byte) (s : State) : BusOnly s (sendAddress bs s) := busOnly_cycles _ s

theorem busOnly_busReadSetup (addr : List Byte) (s : State) : BusOnly s (busReadSetup addr s) :=
  ((busOnly_sendCommand _ s).trans (busOnly_sendAddress _ _)).trans (busOnly_setLatch _ _)

theorem busOnly_busProgSetup (addr bs : List Byte) (s : State) : BusOnly s (busProgSetup addr bs s) :=
  (((busOnly_sendCommand _ s).trans (busOnly_sendAddress _ _)).trans (busOnly_cycles _ _)).trans (busOnly_setLatch _ _)

theorem busOnly_busEraseSetup (addr : List Byte) (s : State) : BusOnly s (busEraseSetup addr s) :=
  ((busOnly_sendCommand _ s).trans (busOnly_sendAddress _ _)).trans (busOnly_setLatch _ _)

theorem busOnly_busReadConfirm (n : Nat) (s : State) : BusOnly s (busReadConfirm n s).2 := by
  unfold busReadConfirm
  have h := ((busOnly_sendCommand s.cfg.opReadConfirm s).trans (busOnly_waitReady s.cfg.readyTimeoutRead _)).trans
    (busOnly_setLatch _ .idle)
  dsimp only
  split
  · exact (h.trans (busOnly_dieRead _ _ _)).trans (busOnly_cycles _ _)
  · exact h

theorem busOnly_busProgConfirm (s : State) : BusOnly s (busProgConfirm s).2 :=
  ((((busOnly_sendCommand _ s).trans (busOnly_waitReady _ _)).trans (busOnly_setLatch _ _)).trans (busOnly_draw _)).trans
    ((busOnly_setStatus _ _).trans (busOnly_dieProgram _ _ _))

theorem busOnly_busEraseConfirm (s : State) : BusOnly s (busEraseConfirm s).2 :=
  ((((busOnly_sendCommand _ s).trans (busOnly_waitReady _ _)).trans (busOnly_setLatch _ _)).trans (busOnly_draw _)).trans
    ((busOnly_setStatus _ _).trans (busOnly_dieErase _ _ _))

theorem busOnly_busReadStatus (s : State) : BusOnly s (busReadStatus s).2 :=
  (busOnly_cycles _ s).trans (busOnly_setLatch _ _)

theorem busOnly_idCycles (bs : List Byte) (s : State) : BusOnly s (idCycles bs s) :=
  (busOnly_cycles _ s).trans (busOnly_setLatch _ _)

theorem busOnly_busReadId (s : State) : BusOnly s (busReadId s).2 :=
  (busOnly_drawBytes _ s).trans (busOnly_idCycles _ _)

theorem busOnly_busReset (s : State) : BusOnly s (busReset s).2 :=
  ((busOnly_sendCommand _ s).trans (busOnly_waitReady _ _)).trans (busOnly_setLatch _ _)

/-! ## The transactions (R196 to R199) -/

theorem busOnly_memRead (row n : Nat) (s : State) : BusOnly s (memRead row n s).2 := by
  have h := (busOnly_busReadSetup (addrBytes s.cfg 0 row) s).trans (busOnly_busReadConfirm n _)
  unfold memRead
  dsimp only
  split <;> exact h

theorem busOnly_checkStatus (r : Bool) (s : State) : BusOnly s (checkStatus r s).2 := by
  unfold checkStatus
  split
  · exact busOnly_busReadStatus s
  · exact BusOnly.refl s

theorem busOnly_memWrite (row : Nat) (bs : List Byte) (s : State) : BusOnly s (memWrite row bs s).2 :=
  ((busOnly_busProgSetup _ _ s).trans (busOnly_busProgConfirm _)).trans (busOnly_checkStatus _ _)

theorem busOnly_memErase (p : Profile) (block : Nat) (s : State) : BusOnly s (memErase p block s).2 :=
  ((busOnly_busEraseSetup _ s).trans (busOnly_busEraseConfirm _)).trans (busOnly_checkStatus _ _)

/-- What every attempt keeps, the bounded retry keeps (R199). -/
theorem withBusRetry_keeps {α : Type} {txn : State → BusResult α × State} {R : State → State → Prop}
    (htrans : ∀ {s t u}, R s t → R t u → R s u) (h : ∀ s, R s (txn s).2) (k : Nat) (s : State) :
    R s (withBusRetry txn k s).2 := by
  induction k generalizing s with
  | zero => exact h s
  | succ k ih =>
    unfold withBusRetry
    split
    · exact htrans (h s) (ih _)
    · exact h s
    · exact h s

/-- An attempt that does not time out is the answer (R199). -/
theorem withBusRetry_of_first {α : Type} {txn : State → BusResult α × State} {s : State} (h : (txn s).1 ≠ .timeout)
    (k : Nat) : withBusRetry txn k s = txn s := by
  cases k with
  | zero => rfl
  | succ k =>
    unfold withBusRetry
    split
    · contradiction
    · rfl
    · rfl

theorem busOnly_readRetry (row n : Nat) (s : State) : BusOnly s (readRetry row n s).2 :=
  @withBusRetry_keeps _ _ BusOnly (fun h k => h.trans k) (busOnly_memRead row n) _ s

theorem busOnly_writeRetry (row : Nat) (bs : List Byte) (s : State) : BusOnly s (writeRetry row bs s).2 :=
  @withBusRetry_keeps _ _ BusOnly (fun h k => h.trans k) (busOnly_memWrite row bs) _ s

theorem busOnly_eraseRetry (p : Profile) (block : Nat) (s : State) : BusOnly s (eraseRetry p block s).2 :=
  @withBusRetry_keeps _ _ BusOnly (fun h k => h.trans k) (busOnly_memErase p block) _ s

theorem busOnly_resetRetry (k : Nat) (s : State) : BusOnly s (resetRetry k s).2 := by
  induction k generalizing s with
  | zero => exact busOnly_busReset s
  | succ k ih =>
    unfold resetRetry
    split
    · exact busOnly_busReset s
    · exact (busOnly_busReset s).trans (ih _)

end Sys2Proof.Machine
end

