-- ==== Sys2Proof/Laws/Transactions.lean ====
section
/-! SUPPORT. What a memory transaction does where the held profile and the die agree (spec/42_bus_driver.md R196 to R198,
spec/20_memory.md R67 to R69): one lemma for each. -/

namespace Sys2Proof.Machine

/-! ## The held profile -/

theorem heldProfile_mem {s : State} {p : Profile} (h : heldProfile s = some p) : p ∈ s.cfg.profileTable := by
  unfold heldProfile at h
  split at h
  · cases h
  · exact List.mem_of_getElem? h

/-- A held profile meets the constraints of R7. -/
theorem heldProfile_ok {s : State} {p : Profile} (hc : s.cfg.ok = true) (h : heldProfile s = some p) :
    p.ok s.cfg = true := by
  simp only [Config.ok, Bool.and_eq_true, List.all_eq_true] at hc
  exact hc.2 p (heldProfile_mem h)

theorem Profile.ok_bounds {c : Config} {p : Profile} (h : p.ok c = true) :
    1 ≤ p.unitSize ∧ p.unitSize ≤ 32767 ∧ 1 ≤ p.pagesPerBlock ∧ 1 ≤ p.blockCount ∧ p.rows < 256 ^ c.rowCycles ∧
      p.rows < 2 ^ 32 ∧ p.pagesPerBlock ≤ 65535 ∧ 1 + 2 * p.unitSize ≤ c.maxPayload := by
  have e : (2 : Nat) ^ (8 * c.rowCycles) = 256 ^ c.rowCycles := by rw [Nat.pow_mul]
  simp only [Profile.ok, Bool.and_eq_true, decide_eq_true_eq, e] at h
  obtain ⟨⟨⟨⟨⟨⟨⟨⟨⟨⟨_, _⟩, _⟩, h3⟩, h4⟩, h5⟩, h6⟩, h7⟩, h8⟩, h9⟩, h10⟩ := h
  exact ⟨h3, h4, h5, h6, h7, h8, h9, h10⟩

/-- The die's geometry is the held profile's. -/
theorem RowOk.geometry {p : Profile} {row : Nat} {s : State} (h : RowOk p row s) :
    s.die.unitSize = p.unitSize ∧ s.die.pagesPerBlock = p.pagesPerBlock ∧ s.die.blockCount = p.blockCount := by
  have := h.agrees
  simp only [dieAgrees, h.held, Bool.and_eq_true, decide_eq_true_eq] at this
  exact ⟨this.1.1.symm, this.1.2.symm, this.2.symm⟩

/-- What agrees before a bus operation agrees after it. -/
theorem RowOk.of_busOnly {p : Profile} {row : Nat} {s t : State} (h : RowOk p row s) (b : BusOnly s t) : RowOk p row t := by
  have hc : t.cfg = s.cfg := by rw [b.registers]
  have hs : t.ses = s.ses := by rw [b.registers]
  have e : heldProfile t = heldProfile s := by simp only [heldProfile, hc, hs]
  refine ⟨e.trans h.held, ?_, h.inRange⟩
  rw [← h.agrees]
  simp only [dieAgrees, e]
  rw [b.dieFixed]

/-! ## Address cycles (R62) -/

@[simp] theorem addrBytes_length (c : Config) (col row : Nat) :
    (addrBytes c col row).length = c.colCycles + c.rowCycles := by simp [addrBytes]

@[simp] theorem rowBytes_length (c : Config) (row : Nat) : (rowBytes c row).length = c.rowCycles := by simp [rowBytes]

theorem addrCol_addrBytes_zero (c : Config) (row : Nat) : addrCol c (addrBytes c 0 row) = 0 := by
  simp [addrCol, addrBytes, unLe_leBytes]

theorem addrRow_addrBytes (c : Config) (col row : Nat) (h : row < 256 ^ c.rowCycles) :
    addrRow c (addrBytes c col row) = row := by
  simp [addrRow, addrBytes, unLe_leBytes_of_lt h]

theorem RowOk.pageAddrOk {p : Profile} {row : Nat} {s : State} (h : RowOk p row s) (hc : s.cfg.ok = true) :
    pageAddrOk s (addrBytes s.cfg 0 row) = true := by
  obtain ⟨-, g2, g3⟩ := h.geometry
  have hb := Profile.ok_bounds (heldProfile_ok hc h.held)
  have hr := h.inRange
  have hlt : row < 256 ^ s.cfg.rowCycles := by omega
  simp only [Machine.pageAddrOk, h.agrees, addrBytes_length, addrCol_addrBytes_zero, addrRow_addrBytes _ _ _ hlt, g2, g3]
  simpa [Profile.rows] using hr

theorem RowOk.blockAddrOk {p : Profile} {block : Nat} {s : State} (h : RowOk p (block * p.pagesPerBlock) s)
    (hc : s.cfg.ok = true) : blockAddrOk s (rowBytes s.cfg (block * p.pagesPerBlock)) = true := by
  obtain ⟨-, g2, g3⟩ := h.geometry
  have hb := Profile.ok_bounds (heldProfile_ok hc h.held)
  have hr := h.inRange
  have hlt : block * p.pagesPerBlock < 256 ^ s.cfg.rowCycles := by omega
  have hu : unLe (rowBytes s.cfg (block * p.pagesPerBlock)) = block * p.pagesPerBlock := unLe_leBytes_of_lt hlt
  simp only [Machine.blockAddrOk, h.agrees, rowBytes_length, hu, g2, g3]
  simpa [Profile.rows] using hr

/-! ## Draws do not look at the registers -/

theorem draw_congr {s t : State} (h : t.env = s.env) : draw t = ((draw s).1, { t with env := (draw s).2.env }) := by
  cases hs : s.env.draws with
  | nil => rw [draw_nil hs, draw_nil (by rw [h]; exact hs)]; simp [h]
  | cons d r => rw [draw_cons hs, draw_cons (by rw [h]; exact hs)]; simp [h]

theorem map_rbSamples (k t : Nat) : (rbSamples k t).map BusCycle.rb = waitTrace k t := by
  rw [rbSamples_eq, waitTrace]; split <;> simp

/-- `wait_ready` after operations that leave the answers alone. -/
theorem waitReady_congr {s t : State} (T : Nat) (h : t.env = s.env) :
    waitReady T t =
      (decide ((draw s).1 < T), { t with env := (draw s).2.env, trace := t.trace ++ waitTrace (draw s).1 T }) := by
  simp only [waitReady, draw_congr h, cycles, map_rbSamples]

/-! ## `MemRead` (R196, R67) -/

/-- A read transaction where profile and die agree: the busy draw decides, the row's bytes come back, only latch and trace
move. -/
theorem memRead_spec {s : State} {p : Profile} {row n : Nat} (hc : s.cfg.ok = true) (h : RowOk p row s)
    (hn : n ≤ p.unitSize) :
    memRead row n s =
      if (draw s).1 < s.cfg.readyTimeoutRead then
        (.ok (readRow s.die.arr row n),
          { s with
            env := (draw s).2.env
            die := { s.die with latch := .idle }
            trace := s.trace ++ [.cmd s.cfg.opReadSetup] ++ (addrBytes s.cfg 0 row).map .addr ++ [.cmd s.cfg.opReadConfirm] ++
              waitTrace (draw s).1 s.cfg.readyTimeoutRead ++ (readRow s.die.arr row n).map .dataRd })
      else
        (.timeout,
          { s with
            env := (draw s).2.env
            die := { s.die with latch := .idle }
            trace := s.trace ++ [.cmd s.cfg.opReadSetup] ++ (addrBytes s.cfg 0 row).map .addr ++ [.cmd s.cfg.opReadConfirm] ++
              waitTrace (draw s).1 s.cfg.readyTimeoutRead }) := by
  have hb := Profile.ok_bounds (heldProfile_ok hc h.held)
  have hr := h.inRange
  have hlt : row < 256 ^ s.cfg.rowCycles := by omega
  have hd : draw (sendCommand s.cfg.opReadConfirm (busReadSetup (addrBytes s.cfg 0 row) s)) = _ :=
    @draw_congr s _ rfl
  obtain ⟨hg, -, -⟩ := h.geometry
  have hp : ∀ t : State, BusOnly s t → pageAddrOk t (addrBytes s.cfg 0 row) = true := by
    intro t hbt
    have := (h.of_busOnly hbt).pageAddrOk (by rw [hbt.registers]; exact hc)
    rwa [show t.cfg = s.cfg by rw [hbt.registers]] at this
  have hbo : BusOnly s ((waitReady s.cfg.readyTimeoutRead
      (sendCommand s.cfg.opReadConfirm (busReadSetup (addrBytes s.cfg 0 row) s))).2.setLatch .idle) :=
    (((busOnly_busReadSetup _ s).trans (busOnly_sendCommand _ _)).trans (busOnly_waitReady _ _)).trans (busOnly_setLatch _ _)
  have hl : (busReadSetup (addrBytes s.cfg 0 row) s).die.latch = .read (addrBytes s.cfg 0 row) := rfl
  have hcf : (busReadSetup (addrBytes s.cfg 0 row) s).cfg = s.cfg := rfl
  unfold memRead busReadConfirm
  simp only [hl, hcf, waitReady_fst]
  by_cases hk : (draw s).1 < s.cfg.readyTimeoutRead
  · have hlatch := hp _ hbo
    simp only [hd, hk, decide_true, if_true, dieRead, hlatch, Bool.true_and]
    rw [if_pos (by simpa [busReadSetup, hg] using hn)]
    simp only [hd, waitReady_snd, setLatch_die, cycles_die, map_rbSamples]
    simp only [cycles, State.setLatch, busReadSetup, sendCommand, sendAddress, addrRow_addrBytes _ _ _ hlt]
  · simp only [hd, hk, decide_false, if_false, Bool.false_eq_true, waitReady_snd, map_rbSamples]
    simp only [cycles, State.setLatch, busReadSetup, sendCommand, sendAddress]

/-! ## Torn rows (R68, R69, R72) -/

theorem SameOutside.refl (row n u : Nat) (m : Memory) : SameOutside row n u m m := fun _ _ => rfl

theorem SameOutside.trans {row n u : Nat} {m m' m'' : Memory} (h : SameOutside row n u m m')
    (k : SameOutside row n u m' m'') : SameOutside row n u m m'' := fun a ha => (k a ha).trans (h a ha)

/-- Rows inside a range are inside the larger range. -/
theorem SameOutside.widen {row n row' n' u : Nat} {m m' : Memory} (h : SameOutside row n u m m') (h1 : row' ≤ row)
    (h2 : row + n ≤ row' + n') : SameOutside row' n' u m m' := by
  intro a ha
  refine h a (fun ⟨r, i, hr, hr', hi, e⟩ => ha ⟨r, i, by omega, by omega, hi, e⟩)

theorem sameOutside_writeRun (m : Memory) (row : Nat) (bs : List Byte) :
    SameOutside row 1 bs.length m (writeRun m (cellAddr row 0) bs) := by
  intro a ha
  refine read_writeRun_outside _ _ ?_
  by_contra hc
  refine ha ⟨row, a - cellAddr row 0, by omega, by omega, by omega, ?_⟩
  simp only [cellAddr] at *; omega

theorem sameOutside_programRow (m : Memory) (row : Nat) (d : List Byte) : SameOutside row 1 d.length m (programRow m row d) := by
  have := sameOutside_writeRun m row (List.zipWith (fun x y => x &&& y) (readRow m row d.length) d)
  rwa [List.length_zipWith, readRow_length, Nat.min_self] at this

theorem sameOutside_eraseRows (n : Nat) (m : Memory) (row u : Nat) : SameOutside row n u m (eraseRows m row n u) := by
  intro a ha
  refine read_eraseRows_outside n m row u a (fun r h1 h2 => ?_)
  by_contra hc
  refine ha ⟨r, a - cellAddr r 0, h1, h2, by omega, ?_⟩
  simp only [cellAddr] at *; omega

/-- Tearing rows moves their cells and uses answers, nothing else. -/
theorem tearRows_frame (n row u : Nat) (s : State) :
    tearRows row n u s =
      { s with
        die := { s.die with arr := (tearRows row n u s).die.arr }
        env := { s.env with draws := (tearRows row n u s).env.draws, drawn := (tearRows row n u s).env.drawn } } := by
  induction n generalizing row s with
  | zero => rfl
  | succ n ih =>
    simp only [tearRows]
    rw [ih]
    simp only [State.setArr]
    rw [drawBytes_frame u s]

@[simp] theorem tearRows_trace (n row u : Nat) (s : State) : (tearRows row n u s).trace = s.trace := by rw [tearRows_frame]
@[simp] theorem tearRows_power (n row u : Nat) (s : State) : (tearRows row n u s).env.power = s.env.power := by
  rw [tearRows_frame]

theorem sameOutside_tearRows (n row u : Nat) (s : State) : SameOutside row n u s.die.arr (tearRows row n u s).die.arr := by
  induction n generalizing row s with
  | zero => exact SameOutside.refl _ _ _ _
  | succ n ih =>
    simp only [tearRows]
    refine SameOutside.trans ?_ ((ih (row + 1) _).widen (by omega) (by omega))
    have := sameOutside_writeRun s.die.arr row (drawBytes u s).1
    rw [drawBytes_length] at this
    simp only [setArr_die, drawBytes_die]
    exact this.widen (by omega) (by omega)

/-- Bit 0 of the status byte is the pass or fail draw (R70, R120). -/
theorem status_bit_zero (d : Nat) : (BitVec.ofNat 8 d ||| 0x40).getLsbD 0 = decide (d % 2 = 1) := by
  rw [BitVec.getLsbD_or, BitVec.getLsbD_ofNat]
  simp [Nat.testBit_zero]

/-! ## Confirms (R186, R187) -/

/-- The status byte the die shows after a confirm: `ready` says whether the wait ended in time, `d` is the draw. -/
def statusAfter (ready : Bool) (d : Nat) : Byte := if ready then BitVec.ofNat 8 d ||| 0x40 else BitVec.ofNat 8 d

/-- The state in which the die's answer to a confirm takes effect. -/
def confirmed (op : Byte) (t : Nat) (s : State) : State :=
  { s with
    env := (draw (draw s).2).2.env
    die := { s.die with status := statusAfter (decide ((draw s).1 < t)) (draw (draw s).2).1, latch := .idle }
    trace := s.trace ++ [.cmd op] ++ waitTrace (draw s).1 t }

theorem busProgConfirm_eq (s : State) :
    busProgConfirm s =
      (decide ((draw s).1 < s.cfg.readyTimeoutProg),
        dieProgram s.die.latch
          (decide ((draw s).1 < s.cfg.readyTimeoutProg) &&
            !(statusAfter (decide ((draw s).1 < s.cfg.readyTimeoutProg)) (draw (draw s).2).1).getLsbD 0)
          (confirmed s.cfg.opProgConfirm s.cfg.readyTimeoutProg s)) := by
  have hw := @waitReady_congr s (sendCommand s.cfg.opProgConfirm s) s.cfg.readyTimeoutProg rfl
  have hd := @draw_congr (draw s).2
    (State.setLatch
      { sendCommand s.cfg.opProgConfirm s with
        env := (draw s).2.env
        trace := (sendCommand s.cfg.opProgConfirm s).trace ++ waitTrace (draw s).1 s.cfg.readyTimeoutProg } .idle) rfl
  simp only [busProgConfirm, hw, hd, confirmed, statusAfter, decide_eq_true_eq]
  rfl

theorem busEraseConfirm_eq (s : State) :
    busEraseConfirm s =
      (decide ((draw s).1 < s.cfg.readyTimeoutErase),
        dieErase s.die.latch
          (decide ((draw s).1 < s.cfg.readyTimeoutErase) &&
            !(statusAfter (decide ((draw s).1 < s.cfg.readyTimeoutErase)) (draw (draw s).2).1).getLsbD 0)
          (confirmed s.cfg.opEraseConfirm s.cfg.readyTimeoutErase s)) := by
  have hw := @waitReady_congr s (sendCommand s.cfg.opEraseConfirm s) s.cfg.readyTimeoutErase rfl
  have hd := @draw_congr (draw s).2
    (State.setLatch
      { sendCommand s.cfg.opEraseConfirm s with
        env := (draw s).2.env
        trace := (sendCommand s.cfg.opEraseConfirm s).trace ++ waitTrace (draw s).1 s.cfg.readyTimeoutErase } .idle) rfl
  simp only [busEraseConfirm, hw, hd, confirmed, statusAfter, decide_eq_true_eq]
  rfl

theorem busOnly_confirmed (op : Byte) (t : Nat) (s : State) : BusOnly s (confirmed op t s) := by
  refine ⟨rfl, rfl, by simp [confirmed], [.cmd op] ++ waitTrace (draw s).1 t, by simp [confirmed]⟩

theorem statusAfter_pass (d : Nat) : (statusAfter true d).getLsbD 0 = decide (d % 2 = 1) := status_bit_zero d

/-- An array effect with the supply on. -/
theorem arrayEffect_on {done torn : State → State} {s : State} (h : s.env.power = .on) : arrayEffect done torn s = done s := by
  simp [arrayEffect, h]

/-- A program confirm over a latched, well-addressed page: passed, the row is ANDed; else only the row may have moved. -/
theorem dieProgram_spec {s : State} {addr bs : List Byte} (passed : Bool) (hp : pageAddrOk s addr = true)
    (hl : bs.length = s.die.unitSize) (hpw : s.env.power = .on) :
    dieProgram (.prog addr bs) passed s =
      if passed then s.setArr (programRow s.die.arr (addrRow s.cfg addr) bs)
      else tearRows (addrRow s.cfg addr) 1 s.die.unitSize s := by
  simp only [dieProgram, hp, hl, decide_true, Bool.and_self, if_true, arrayEffect_on hpw]

/-- An erase confirm over a latched, well-addressed block. -/
theorem dieErase_spec {s : State} {addr : List Byte} (passed : Bool) (hp : blockAddrOk s addr = true)
    (hpw : s.env.power = .on) :
    dieErase (.erase addr) passed s =
      if passed then s.setArr (eraseRows s.die.arr (unLe addr) s.die.pagesPerBlock s.die.unitSize)
      else tearRows (unLe addr) s.die.pagesPerBlock s.die.unitSize s := by
  simp only [dieErase, hp, if_true, arrayEffect_on hpw]

/-- The end of a program or an erase: the status read tells pass from fail, only the target rows moved. -/
theorem checkStatus_spec {c : State} {m : Memory} {row n u d : Nat} {ready : Bool} (hst : c.die.status = statusAfter ready d)
    (hm : SameOutside row n u c.die.arr m) :
    (checkStatus ready (if (ready && !(statusAfter ready d).getLsbD 0) = true then c.setArr m else tearRows row n u c)).1 =
        (if ready then if d % 2 = 1 then .statusFail else .ok () else .timeout) ∧
      SameOutside row n u c.die.arr
        (checkStatus ready
          (if (ready && !(statusAfter ready d).getLsbD 0) = true then c.setArr m else tearRows row n u c)).2.die.arr ∧
      (checkStatus ready
          (if (ready && !(statusAfter ready d).getLsbD 0) = true then c.setArr m else tearRows row n u c)).2.env.power =
        c.env.power ∧
      (ready = true → d % 2 = 0 →
        checkStatus ready (if (ready && !(statusAfter ready d).getLsbD 0) = true then c.setArr m else tearRows row n u c) =
          (.ok (), (busReadStatus (c.setArr m)).2)) := by
  cases ready with
  | false =>
    simp only [Bool.false_and, Bool.false_eq_true, if_false, checkStatus, tearRows_power, false_implies, and_true, true_and]
    exact sameOutside_tearRows n row u c
  | true =>
    have hts : (tearRows row n u c).die.status = c.die.status := by rw [tearRows_frame]
    simp only [Bool.true_and, statusAfter_pass, checkStatus, if_true, busReadStatus]
    by_cases hd : d % 2 = 1
    · refine ⟨?_, ?_, ?_, by omega⟩
      · simp only [hd, decide_true, Bool.not_true, Bool.false_eq_true, if_false, if_true, hts, hst, statusAfter_pass]
      · simp only [hd, decide_true, Bool.not_true, Bool.false_eq_true, if_false, setLatch_die, cycles_die]
        exact sameOutside_tearRows n row u c
      · simp [hd]
    · refine ⟨?_, ?_, ?_, fun _ _ => ?_⟩
      · simp only [hd, decide_false, Bool.not_false, if_true, setArr_die, hst, statusAfter_pass, Bool.false_eq_true, if_false]
      · simpa only [hd, decide_false, Bool.not_false, if_true, setLatch_die, cycles_die, setArr_die] using hm
      · simp [hd]
      · simp only [hd, decide_false, Bool.not_false, if_true, setArr_die, hst, statusAfter_pass, Bool.false_eq_true, if_false]

/-- A confirm after operations that leave the answers alone. -/
theorem confirmed_congr {s t : State} (op : Byte) (T : Nat) (h : t.env = s.env) :
    confirmed op T t =
      { t with
        env := (draw (draw s).2).2.env
        die := { t.die with status := statusAfter (decide ((draw s).1 < T)) (draw (draw s).2).1, latch := .idle }
        trace := t.trace ++ [.cmd op] ++ waitTrace (draw s).1 T } := by
  have h1 : (draw t).1 = (draw s).1 := by rw [draw_congr h]
  have h2 : draw (draw t).2 = _ := @draw_congr (draw s).2 _ (by rw [draw_congr h])
  simp only [confirmed, h1, h2]

theorem confirm_draws {s t : State} (h : t.env = s.env) :
    (draw t).1 = (draw s).1 ∧ (draw (draw t).2).1 = (draw (draw s).2).1 := by
  have h2 : draw (draw t).2 = _ := @draw_congr (draw s).2 _ (by rw [draw_congr h])
  rw [h2, draw_congr h]
  exact ⟨rfl, rfl⟩

/-! ## `MemWrite` and `MemErase` (R197, R198, R68, R69) -/

/-- A program transaction where profile and die agree. -/
theorem memWrite_spec {s : State} {p : Profile} {row : Nat} {bs : List Byte} (hc : s.cfg.ok = true) (h : RowOk p row s)
    (hl : bs.length = p.unitSize) (hpw : s.env.power = .on) :
    (memWrite row bs s).1 =
        (if (draw s).1 < s.cfg.readyTimeoutProg then
          if (draw (draw s).2).1 % 2 = 1 then .statusFail else .ok ()
        else .timeout) ∧
      SameOutside row 1 p.unitSize s.die.arr (memWrite row bs s).2.die.arr ∧
      (memWrite row bs s).2.env.power = .on ∧
      ((draw s).1 < s.cfg.readyTimeoutProg → (draw (draw s).2).1 % 2 = 0 →
        (memWrite row bs s).2 =
          { s with
            env := (draw (draw s).2).2.env
            die :=
              { s.die with
                arr := programRow s.die.arr row bs, status := BitVec.ofNat 8 (draw (draw s).2).1 ||| 0x40, latch := .idle }
            trace := s.trace ++ [.cmd s.cfg.opProgSetup] ++ (addrBytes s.cfg 0 row).map .addr ++ bs.map .dataWr ++
              [.cmd s.cfg.opProgConfirm] ++ waitTrace (draw s).1 s.cfg.readyTimeoutProg ++
              [.cmd s.cfg.opReadStatus, .dataRd (BitVec.ofNat 8 (draw (draw s).2).1 ||| 0x40)] }) := by
  have hb := Profile.ok_bounds (heldProfile_ok hc h.held)
  have hr := h.inRange
  have hlt : row < 256 ^ s.cfg.rowCycles := by omega
  obtain ⟨hd1, hd2⟩ := @confirm_draws s (busProgSetup (addrBytes s.cfg 0 row) bs s) rfl
  have he := busProgConfirm_eq (busProgSetup (addrBytes s.cfg 0 row) bs s)
  have hca := @confirmed_congr s (busProgSetup (addrBytes s.cfg 0 row) bs s) s.cfg.opProgConfirm s.cfg.readyTimeoutProg rfl
  have hbo := (busOnly_busProgSetup (addrBytes s.cfg 0 row) bs s).trans
    (busOnly_confirmed s.cfg.opProgConfirm s.cfg.readyTimeoutProg _)
  rw [show (busProgSetup (addrBytes s.cfg 0 row) bs s).cfg = s.cfg from rfl,
    show (busProgSetup (addrBytes s.cfg 0 row) bs s).die.latch = .prog (addrBytes s.cfg 0 row) bs from rfl, hd1, hd2] at he
  generalize confirmed s.cfg.opProgConfirm s.cfg.readyTimeoutProg (busProgSetup (addrBytes s.cfg 0 row) bs s) = c at he hca hbo
  have hcfg : c.cfg = s.cfg := by rw [hca]; rfl
  have hra := h.of_busOnly hbo
  have hpa := hra.pageAddrOk (by rw [hcfg]; exact hc)
  rw [hcfg] at hpa
  have hpw' : c.env.power = .on := by rw [hca]; simpa using hpw
  rw [dieProgram_spec _ hpa (hl.trans hra.geometry.1.symm) hpw', hcfg, addrRow_addrBytes _ _ _ hlt, hra.geometry.1] at he
  obtain ⟨h1, h2, h3, h4⟩ := @checkStatus_spec c (programRow c.die.arr row bs) row 1 p.unitSize (draw (draw s).2).1
    (decide ((draw s).1 < s.cfg.readyTimeoutProg)) (by rw [hca]) (hl ▸ sameOutside_programRow c.die.arr row bs)
  have harr : c.die.arr = s.die.arr := by rw [hca]; rfl
  simp only [memWrite, he]
  refine ⟨by rw [h1]; simp, harr ▸ h2, h3.trans hpw', fun hk hd => ?_⟩
  rw [h4 (by simpa using hk) hd, harr]
  subst hca
  simp [busReadStatus, State.setArr, State.setLatch, cycles, busProgSetup, sendCommand, sendAddress, statusAfter, hk]

/-- An erase transaction where profile and die agree. -/
theorem memErase_spec {s : State} {p : Profile} {block : Nat} (hc : s.cfg.ok = true)
    (h : RowOk p (block * p.pagesPerBlock) s) (hpw : s.env.power = .on) :
    (memErase p block s).1 =
        (if (draw s).1 < s.cfg.readyTimeoutErase then
          if (draw (draw s).2).1 % 2 = 1 then .statusFail else .ok ()
        else .timeout) ∧
      SameOutside (block * p.pagesPerBlock) p.pagesPerBlock p.unitSize s.die.arr (memErase p block s).2.die.arr ∧
      (memErase p block s).2.env.power = .on ∧
      ((draw s).1 < s.cfg.readyTimeoutErase → (draw (draw s).2).1 % 2 = 0 →
        (memErase p block s).2 =
          { s with
            env := (draw (draw s).2).2.env
            die :=
              { s.die with
                arr := eraseRows s.die.arr (block * p.pagesPerBlock) p.pagesPerBlock p.unitSize
                status := BitVec.ofNat 8 (draw (draw s).2).1 ||| 0x40
                latch := .idle }
            trace := s.trace ++ [.cmd s.cfg.opEraseSetup] ++ (rowBytes s.cfg (block * p.pagesPerBlock)).map .addr ++
              [.cmd s.cfg.opEraseConfirm] ++ waitTrace (draw s).1 s.cfg.readyTimeoutErase ++
              [.cmd s.cfg.opReadStatus, .dataRd (BitVec.ofNat 8 (draw (draw s).2).1 ||| 0x40)] }) := by
  have hb := Profile.ok_bounds (heldProfile_ok hc h.held)
  have hr := h.inRange
  have hlt : block * p.pagesPerBlock < 256 ^ s.cfg.rowCycles := by omega
  have hu : unLe (rowBytes s.cfg (block * p.pagesPerBlock)) = block * p.pagesPerBlock := unLe_leBytes_of_lt hlt
  obtain ⟨hd1, hd2⟩ := @confirm_draws s (busEraseSetup (rowBytes s.cfg (block * p.pagesPerBlock)) s) rfl
  have he := busEraseConfirm_eq (busEraseSetup (rowBytes s.cfg (block * p.pagesPerBlock)) s)
  have hca := @confirmed_congr s (busEraseSetup (rowBytes s.cfg (block * p.pagesPerBlock)) s) s.cfg.opEraseConfirm
    s.cfg.readyTimeoutErase rfl
  have hbo := (busOnly_busEraseSetup (rowBytes s.cfg (block * p.pagesPerBlock)) s).trans
    (busOnly_confirmed s.cfg.opEraseConfirm s.cfg.readyTimeoutErase _)
  rw [show (busEraseSetup (rowBytes s.cfg (block * p.pagesPerBlock)) s).cfg = s.cfg from rfl,
    show (busEraseSetup (rowBytes s.cfg (block * p.pagesPerBlock)) s).die.latch =
      .erase (rowBytes s.cfg (block * p.pagesPerBlock)) from rfl, hd1, hd2] at he
  generalize confirmed s.cfg.opEraseConfirm s.cfg.readyTimeoutErase
    (busEraseSetup (rowBytes s.cfg (block * p.pagesPerBlock)) s) = c at he hca hbo
  have hcfg : c.cfg = s.cfg := by rw [hca]; rfl
  have hra := h.of_busOnly hbo
  have hpa := hra.blockAddrOk (by rw [hcfg]; exact hc)
  rw [hcfg] at hpa
  have hpw' : c.env.power = .on := by rw [hca]; simpa using hpw
  rw [dieErase_spec _ hpa hpw', hu, hra.geometry.1, hra.geometry.2.1] at he
  obtain ⟨h1, h2, h3, h4⟩ := @checkStatus_spec c
    (eraseRows c.die.arr (block * p.pagesPerBlock) p.pagesPerBlock p.unitSize) (block * p.pagesPerBlock) p.pagesPerBlock
    p.unitSize (draw (draw s).2).1 (decide ((draw s).1 < s.cfg.readyTimeoutErase)) (by rw [hca]) (sameOutside_eraseRows _ _ _ _)
  have harr : c.die.arr = s.die.arr := by rw [hca]; rfl
  simp only [memErase, he]
  refine ⟨by rw [h1]; simp, harr ▸ h2, h3.trans hpw', fun hk hd => ?_⟩
  rw [h4 (by simpa using hk) hd, harr]
  subst hca
  simp [busReadStatus, State.setArr, State.setLatch, cycles, busEraseSetup, sendCommand, sendAddress, statusAfter, hk]

end Sys2Proof.Machine
end

