-- ==== Sys2Proof/Laws/Sequencer.lean ====
section
/-! SUPPORT. The sequencer's shared operations: frames as bytes, the end of a unit, the retried transactions, the range of a
request. -/

namespace Sys2Proof.Machine

/-! ## Frames as bytes -/

theorem encode_rspAck (c : Config) (cmd info : Byte) : encode c (.rspAck cmd info) = ackFrame c cmd info := rfl

theorem encode_rspFailed (c : Config) (cause ctx : Byte) : encode c (.rspFailed cause ctx) = failedFrame c cause ctx := rfl

theorem encode_progress (c : Config) (d t : U32) : encode c (.rspProgress (percent d t) d t) = progressFrame c d t := rfl

theorem encode_complete (c : Config) (k : Byte) (n : U32) : encode c (.rspComplete k n) = completeFrame c k n := rfl

/-! ## The checkpoint record (R251, R252) -/

theorem save_on {s : State} (h : s.env.power = .on) (kind : Byte) (block : U32) (page : U16) (hash token : U32) :
    save kind block page hash token s =
      { s with cp := { valid := true, kind := kind, block := block, page := page, hash := hash, token := token } } := by
  simp [save, recordEffect, h]

/-- `clear` with the supply on: the record is invalid, one answer is used up. -/
theorem clearCp_on {s : State} (h : s.env.power = .on) :
    ∃ cp : Checkpoint, cp.valid = false ∧ clearCp s = { s with cp := cp, env := { s.env with drawn := s.env.drawn + 1 } } := by
  refine ⟨(clearCp s).cp, ?_, ?_⟩ <;> simp [clearCp, recordEffect, h]

/-- `clear` under any supply touches the record and the answers only. -/
theorem clearCp_frame (s : State) :
    clearCp s = { s with cp := (clearCp s).cp, env := (clearCp s).env } ∧ (clearCp s).env.schedule = s.env.schedule := by
  unfold clearCp recordEffect
  split <;> exact ⟨rfl, rfl⟩

/-- `save` under any supply touches the record and the supply's count only. -/
theorem save_frame (kind : Byte) (block : U32) (page : U16) (hash token : U32) (s : State) :
    save kind block page hash token s =
        { s with cp := (save kind block page hash token s).cp, env := (save kind block page hash token s).env } ∧
      (save kind block page hash token s).env.schedule = s.env.schedule := by
  unfold save recordEffect
  split <;> exact ⟨rfl, rfl⟩

/-! ## The end of a unit (R283) -/

/-- The cursor of `advanceCursor`, written as the rule writes it (R25). -/
theorem advanceCursor_eq (c : Config) (p : Profile) (o : OpRegs) :
    advanceCursor c p { o with opDone := o.opDone + 1 } = countedOp c p o := by
  unfold advanceCursor countedOp blockEnds
  by_cases h1 : o.opKind = c.commands.erase
  · simp [h1]
  · by_cases h2 : o.curPage.toNat + 1 = p.pagesPerBlock <;> simp [h1, h2]

/-- `finish_unit` with the supply on, from a cursor inside the array. -/
theorem finishUnit_spec {p : Profile} {s : State} (hp : s.env.power = .on) (hppb : 1 ≤ p.pagesPerBlock)
    (hppb' : p.pagesPerBlock ≤ 65535) (hblk : s.op.curBlock.toNat + 1 < 2 ^ 32)
    (hpage : s.op.curPage.toNat < p.pagesPerBlock) (herase : s.op.opKind = s.cfg.commands.erase → s.op.curPage = 0) :
    finishUnit p s =
        { s with
          seq := seqAfterUnit s.seq s.op
          op := countedOp s.cfg p s.op
          cp := (finishUnit p s).cp
          tx := s.tx ++ unitFrames s.cfg s.op
          env := (finishUnit p s).env } ∧
      CheckpointAfterUnit p s s.op.lastHash (finishUnit p s).cp ∧ (finishUnit p s).env.power = .on ∧
      (finishUnit p s).env.draws = s.env.draws ∧ (finishUnit p s).env.schedule = s.env.schedule := by
  have hd : (countedOp s.cfg p s.op).opDone = s.op.opDone + 1 := rfl
  have ht : (countedOp s.cfg p s.op).opTotal = s.op.opTotal := rfl
  have hk : (countedOp s.cfg p s.op).opKind = s.op.opKind := rfl
  have hh : (countedOp s.cfg p s.op).lastHash = s.op.lastHash := rfl
  have hpg : (countedOp s.cfg p s.op).curPage.toNat = 0 ↔ blockEnds s.cfg p s.op = true := by
    unfold countedOp blockEnds
    by_cases h1 : s.op.opKind = s.cfg.commands.erase
    · simp [h1, herase h1]
    · by_cases h2 : s.op.curPage.toNat + 1 = p.pagesPerBlock
      · simp [h1, h2]
      · have : (s.op.curPage + 1).toNat = s.op.curPage.toNat + 1 := by
          rw [BitVec.toNat_add]; simp; omega
        simp [h1, h2]; omega
  unfold finishUnit
  simp only [advanceCursor_eq, hd, ht]
  by_cases hlast : s.op.opDone + 1 = s.op.opTotal
  · have hlast' : s.op.opDone + 1#32 = s.op.opTotal := hlast
    obtain ⟨cp, h1, h2⟩ := @clearCp_on { s with seq := .completed, op := countedOp s.cfg p s.op } hp
    simp only [hlast, if_true, completeOp, h2]
    refine ⟨?_, ?_, hp, rfl, rfl⟩
    · simp [emitComplete, emitProgress, emit, encode_progress, encode_complete, seqAfterUnit, hlast', unitFrames, hd, ht, hk]
    · simp only [CheckpointAfterUnit, hlast, if_true, emitComplete_cp, emitProgress_cp]; exact h1
  · have hlast' : ¬s.op.opDone + 1#32 = s.op.opTotal := hlast
    simp only [hlast, if_false, hpg]
    by_cases hb : blockEnds s.cfg p s.op = true
    · simp only [hb, if_true, saveProgress]
      rw [save_on (by exact hp)]
      have hcb : (countedOp s.cfg p s.op).curBlock = s.op.curBlock + 1 := by simp [countedOp, hb]
      have hpred : predUnit p (countedOp s.cfg p s.op).curBlock (countedOp s.cfg p s.op).curPage =
          (s.op.curBlock, BitVec.ofNat 16 (p.pagesPerBlock - 1)) := by
        unfold predUnit
        rw [if_pos (hpg.2 hb), hcb]
        have : (s.op.curBlock + 1).toNat - 1 = s.op.curBlock.toNat := by
          rw [BitVec.toNat_add]; simp; omega
        rw [this]; simp
      refine ⟨?_, ?_, hp, rfl, rfl⟩
      · simp [emitProgress, emit, encode_progress, seqAfterUnit, hlast', unitFrames, hd, ht]
      · simp only [CheckpointAfterUnit, hlast, if_false, hb, if_true, emitProgress_cp, hpred, hk, hh]
    · simp only [hb]
      refine ⟨?_, ?_, hp, rfl, rfl⟩
      · simp [emitProgress, emit, encode_progress, seqAfterUnit, hlast', unitFrames, hd, ht]
      · simp [CheckpointAfterUnit, hlast', hb]

end Sys2Proof.Machine
end

