-- ==== Sys2Proof/Laws/Commands.lean ====
section
/-! SUPPORT. What the handlers of the commands are made of: the retried transactions, the start of an operation, a unit of a
Write, frame errors, autotune, the listing, the die reset of `REDETECT`. Each lemma says once what a shared operation does. -/

namespace Sys2Proof.Machine

/-! ## Retried transactions (R199) -/

theorem readRetry_of {row n : Nat} {s : State} (h : (memRead row n s).1 ≠ .timeout) :
    readRetry row n s = memRead row n s := withBusRetry_of_first h _

theorem writeRetry_of {row : Nat} {x : List Byte} {s : State} (h : (memWrite row x s).1 ≠ .timeout) :
    writeRetry row x s = memWrite row x s := withBusRetry_of_first h _

theorem eraseRetry_of {p : Profile} {block : Nat} {s : State} (h : (memErase p block s).1 ≠ .timeout) :
    eraseRetry p block s = memErase p block s := withBusRetry_of_first h _

/-- An attempt that times out leads to the next one. -/
theorem withBusRetry_succ {α : Type} {txn : State → BusResult α × State} {k : Nat} {s : State}
    (h : (txn s).1 = .timeout) : withBusRetry txn (k + 1) s = withBusRetry txn k (txn s).2 := by
  rw [withBusRetry]; split
  · rfl
  · simp_all
  · simp_all

/-- A read whose wait runs out, under any profile. -/
theorem memRead_timeout (row n : Nat) {s : State} (h : s.cfg.readyTimeoutRead ≤ (draw s).1) :
    ∃ tr, memRead row n s =
      (.timeout, { s with env := (draw s).2.env, die := { s.die with latch := .idle }, trace := tr }) := by
  unfold memRead busReadConfirm
  have hw := @waitReady_congr s
    (sendCommand (busReadSetup (addrBytes s.cfg 0 row) s).cfg.opReadConfirm (busReadSetup (addrBytes s.cfg 0 row) s))
    s.cfg.readyTimeoutRead rfl
  have hc : (busReadSetup (addrBytes s.cfg 0 row) s).cfg.readyTimeoutRead = s.cfg.readyTimeoutRead := rfl
  simp only [hc, hw, Nat.not_lt.2 h, decide_false]
  exact ⟨_, rfl⟩

/-- A retried read all of whose `k + 1` waits run out. -/
theorem withBusRetry_memRead_timeout (row n : Nat) (rest : List Nat) (k : Nat) {busy : List Nat} {s : State}
    (hd : s.env.draws = busy ++ rest) (hl : busy.length = k + 1) (hb : ∀ b ∈ busy, s.cfg.readyTimeoutRead ≤ b) :
    ∃ tr, withBusRetry (memRead row n) k s =
      (.timeout, { s with env := { s.env with draws := rest }, die := { s.die with latch := .idle }, trace := tr }) := by
  induction k generalizing s busy with
  | zero =>
    match busy, hl with
    | [b], _ =>
      have hdr := draw_cons (s := s) (d := b) (r := rest) (by simpa using hd)
      obtain ⟨tr, h⟩ := memRead_timeout row n (by rw [hdr]; exact hb b (by simp))
      exact ⟨tr, by rw [withBusRetry, h, hdr]⟩
  | succ k ih =>
    match busy, hl with
    | b :: bs, hl =>
      have hdr := draw_cons (s := s) (d := b) (r := bs ++ rest) (by simpa using hd)
      obtain ⟨tr, h⟩ := memRead_timeout row n (by rw [hdr]; exact hb b (by simp))
      rw [withBusRetry_succ (by rw [h]), h, hdr]
      obtain ⟨tr2, h2⟩ := @ih bs
        { s with env := { s.env with draws := bs ++ rest }, die := { s.die with latch := .idle }, trace := tr }
        rfl (by simpa using hl) (fun c hc => hb c (by simp [hc]))
      exact ⟨tr2, by rw [h2]⟩

/-! ## The latch after a program (R186) -/

@[simp] theorem tearRows_latch (n row u : Nat) (s : State) : (tearRows row n u s).die.latch = s.die.latch := by
  rw [tearRows_frame]

theorem strayChange_latch (s : State) : (strayChange s).die.latch = s.die.latch := rfl

theorem arrayEffect_latch {done torn : State → State} (hd : ∀ s, (done s).die.latch = s.die.latch)
    (ht : ∀ s, (torn s).die.latch = s.die.latch) (s : State) : (arrayEffect done torn s).die.latch = s.die.latch := by
  unfold arrayEffect
  split <;> simp [hd, ht]

theorem dieProgram_latch (l : Latch) (passed : Bool) (s : State) : (dieProgram l passed s).die.latch = s.die.latch := by
  unfold dieProgram
  split
  · split
    · exact arrayEffect_latch (fun t => by split <;> simp) (by simp) s
    · exact arrayEffect_latch strayChange_latch strayChange_latch s
  all_goals exact arrayEffect_latch strayChange_latch strayChange_latch s

theorem dieErase_latch (l : Latch) (passed : Bool) (s : State) : (dieErase l passed s).die.latch = s.die.latch := by
  unfold dieErase
  split
  · split
    · exact arrayEffect_latch (fun t => by split <;> simp) (by simp) s
    · exact arrayEffect_latch strayChange_latch strayChange_latch s
  all_goals exact arrayEffect_latch strayChange_latch strayChange_latch s

theorem checkStatus_latch (ready : Bool) {s : State} (h : s.die.latch = .idle) :
    (checkStatus ready s).2.die.latch = .idle := by
  unfold checkStatus
  split
  · rfl
  · exact h

theorem memWrite_latch (row : Nat) (x : List Byte) (s : State) : (memWrite row x s).2.die.latch = .idle := by
  refine checkStatus_latch _ ?_
  rw [busProgConfirm_eq]
  exact (dieProgram_latch _ _ _).trans rfl

theorem memErase_latch (p : Profile) (block : Nat) (s : State) : (memErase p block s).2.die.latch = .idle := by
  refine checkStatus_latch _ ?_
  rw [busEraseConfirm_eq]
  exact (dieErase_latch _ _ _).trans rfl

/-! ## Positions of a row in the array (R61) -/

/-- The block of a row of the array, and its successor, fit their registers. -/
theorem RowOk.block_lt {p : Profile} {block page : Nat} {s : State} (hc : s.cfg.ok = true)
    (h : RowOk p (block * p.pagesPerBlock + page) s) : block < p.blockCount ∧ block + 1 < 2 ^ 32 := by
  have hb := Profile.ok_bounds (heldProfile_ok hc h.held)
  have hr := h.inRange
  simp only [Profile.rows] at hr hb
  have h1 : block * p.pagesPerBlock < p.blockCount * p.pagesPerBlock := by omega
  have h2 : block < p.blockCount := lt_of_mul_lt_mul_right h1 (Nat.zero_le _)
  have h3 : p.blockCount ≤ p.blockCount * p.pagesPerBlock := Nat.le_mul_of_pos_right _ (by omega)
  omega

/-- Every page of a block of the array is a row of it. -/
theorem RowOk.page {p : Profile} {block page : Nat} {s : State} (hc : s.cfg.ok = true)
    (h : RowOk p (block * p.pagesPerBlock) s) (hg : page < p.pagesPerBlock) :
    RowOk p (block * p.pagesPerBlock + page) s := by
  obtain ⟨h1, _⟩ := RowOk.block_lt (block := block) (page := 0) hc h
  refine ⟨h.held, h.agrees, ?_⟩
  have h2 : (block + 1) * p.pagesPerBlock ≤ p.blockCount * p.pagesPerBlock := Nat.mul_le_mul_right _ h1
  rw [Nat.succ_mul] at h2
  simp only [Profile.rows]
  omega

/-- A programmed row reads back as sent when no bit of the unit is to be set (R68). -/
theorem readRow_programRow {m : Memory} {row : Nat} {x : List Byte}
    (h : ∀ j b, x[j]? = some b → cellByte m (cellAddr row j) &&& b = b) :
    readRow (programRow m row x) row x.length = x := by
  apply List.ext_getElem?
  intro j
  by_cases hj : j < x.length
  · rw [readRow_getElem? _ _ _ _ hj, cellByte_programRow _ _ _ _ hj, List.getElem?_eq_getElem hj,
      h j _ (List.getElem?_eq_getElem hj)]
  · rw [List.getElem?_eq_none (by simp; omega), List.getElem?_eq_none (by omega)]

/-! ## Units of a Write (R284) -/

/-- In a running Write, `DATA` and the three stream units are `on_data` of the payload they bring. -/
theorem exec_unit {i : Instr} {payload : List Byte} {s : State} (h : unitPayload i = some payload)
    (hr : s.seq = .running) (hk : s.op.opKind = s.cfg.commands.write) : exec i s = onData payload s := by
  have ha : accept s.cfg .data s.seq s.op.opKind = .accept := by simp [accept, hr, hk]
  cases i <;> simp [unitPayload] at h <;> subst h <;>
    simp [exec, execData, execUnitRaw, execUnitRle, execUnitBlank, accepted, ha]

theorem rleDecode_length {u n : Nat} {body out x : List Byte} (hl : body.length ≤ n) (h : rleDecode u out body = some x) :
    x.length = u := by
  induction n generalizing body out with
  | zero =>
    match body, hl with
    | [], _ => simp [rleDecode] at h; obtain ⟨a, rfl⟩ := h; exact a
  | succ n ih =>
    match body, hl with
    | [], _ => simp [rleDecode] at h; obtain ⟨a, rfl⟩ := h; exact a
    | [_], _ => simp [rleDecode] at h
    | v :: k :: r, hl =>
      rw [rleDecode] at h
      split at h
      · cases h
      · split at h
        · cases h
        · exact ih (by simp at hl; omega) h

/-- A decoded unit has `U` bytes (R226). -/
theorem decodeUnit_length {u : Nat} {p x : List Byte} (h : decodeUnit u p = some x) : x.length = u := by
  unfold decodeUnit at h
  split at h
  · cases h
  · repeat' split at h
    all_goals (try cases h)
    · simp_all
    · simp
    · exact rleDecode_length le_rfl h

/-- A unit with a byte other than `0xFF`, or without skip-blank, is programmed (R284). -/
theorem skips_false {b : Bool} {x : List Byte} (h : b = false ∨ ∃ c ∈ x, c ≠ 0xFF) : (b && allFf x) = false := by
  rcases h with rfl | ⟨c, hc, hne⟩
  · rfl
  · have : allFf x = false := by
      simp only [allFf, List.all_eq_false]; exact ⟨c, hc, by simpa [erased] using hne⟩
    simp [this]

/-- The tail of a Write unit (R284, R283) over a cursor inside the array. -/
theorem finishWrite_spec {p : Profile} {x : List Byte} {s : State} (hp : s.env.power = .on) (hppb : 1 ≤ p.pagesPerBlock)
    (hppb' : p.pagesPerBlock ≤ 65535) (hblk : s.op.curBlock.toNat + 1 < 2 ^ 32)
    (hpage : s.op.curPage.toNat < p.pagesPerBlock) (hc : s.cfg.commandsDistinct = true) (hk : s.op.opKind = s.cfg.commands.write) :
    finishWrite p x s =
        { s with
          seq := seqAfterUnit s.seq s.op
          op :=
            { countedOp s.cfg p s.op with
              lastHash := chunkHash s.cfg x
              bytesDone := s.op.bytesDone + BitVec.ofNat 64 p.unitSize
              frameErrCnt := 0 }
          cp := (finishWrite p x s).cp
          tx := s.tx ++ unitFrames s.cfg s.op
          env := (finishWrite p x s).env } ∧
      CheckpointAfterUnit p s (chunkHash s.cfg x) (finishWrite p x s).cp ∧
      (finishWrite p x s).env.draws = s.env.draws := by
  unfold finishWrite
  obtain ⟨h1, h2, -, h4, -⟩ := @finishUnit_spec p
    { updateChunk p x s with op := { (updateChunk p x s).op with frameErrCnt := 0 } } hp hppb hppb' hblk hpage
    (fun h => absurd (hk.symm.trans h) (kinds_ne hc).2.2)
  exact ⟨by rw [h1]; rfl, h2, h4⟩

/-! ## Starting an operation (R276, R277, R279) -/

theorem active_of_idleLike {q : Seq} (h : idleLike q = true) : active q = false := by
  revert h; cases q <;> simp [active, idleLike]

/-- In an idle-like state `READ`, `WRITE` and `ERASE` are `start_op`. -/
theorem exec_request {i : Instr} {kind : Byte} {r : Request} {s : State} (h : requestOf s.cfg i = some (kind, r))
    (hi : idleLike s.seq = true) : exec i s = startOp kind r s := by
  have ha := active_of_idleLike hi
  cases i <;> simp [requestOf] at h <;> obtain ⟨rfl, rfl⟩ := h <;>
    simp [exec, execRead, execWrite, execErase, accepted, accept, ha]

theorem held_ne_none {s : State} {p : Profile} (h : heldProfile s = some p) : s.ses.profile ≠ 0xFF := by
  intro e; simp [heldProfile, e] at h

/-- `start_op` of a valid request with a profile held. -/
theorem startOp_valid {kind : Byte} {r : Request} {s : State} {p : Profile} {start total : Nat}
    (hh : heldProfile s = some p) (hv : validate s.cfg p kind r = some (start, total)) :
    startOp kind r s = .next (runOp p kind r start total s) := by
  simp only [startOp, held_ne_none hh, if_false, withProfile, hh, hv]

/-- What an accepted request writes before the resume decision. -/
theorem beginOp_eq (p : Profile) (kind : Byte) (r : Request) (start total : Nat) (s : State) :
    beginOp p kind r start total s = { s with seq := .running, op := freshOp s.cfg p kind r start total } := by
  have h : (beginOp p kind r start total s).op = freshOp s.cfg p kind r start total := by
    simp only [beginOp, freshOp, cursorAt, setCursor, flagCompress, flagSkipBlank, flagVerify]
    split <;> simp_all
  rw [← h]; rfl

/-- The totals of a valid request fit their registers (R277, "Full-chip totals fit a u32"). -/
theorem validate_lt {p : Profile} {c d : Config} {kind : Byte} {r : Request} {start total : Nat} (hb : p.ok d = true)
    (h : validate c p kind r = some (start, total)) : 1 ≤ total ∧ total < 2 ^ 32 ∧ start + total < 2 ^ 32 := by
  have hbnd := Profile.ok_bounds hb
  have h1 : 1 ≤ p.rows := Nat.mul_pos (by omega) (by omega)
  have h4 : p.blockCount ≤ p.rows := Nat.le_mul_of_pos_right _ (by omega)
  unfold validate at h
  repeat' split at h
  all_goals (try cases h)
  all_goals omega

/-- The answer of a fresh start (R279). -/
theorem announce_fresh {p : Profile} {kind info : Byte} {r : Request} {start total : Nat} {s : State}
    (hop : s.op = freshOp s.cfg p kind r start total) (h1 : 1 ≤ total) (h2 : total < 2 ^ 32) :
    announce info s =
      { s with tx := s.tx ++ ackFrame s.cfg kind info ++ progressFrame s.cfg 0 (BitVec.ofNat 32 total) } := by
  unfold announce
  have e : (emitProgress (emit (.rspAck s.op.opKind info) s)).op = freshOp s.cfg p kind r start total := by rw [← hop]; rfl
  have hne : ¬(freshOp s.cfg p kind r start total).opDone = (freshOp s.cfg p kind r start total).opTotal := by
    show ¬(0#32 = BitVec.ofNat 32 total)
    intro e
    have := congrArg BitVec.toNat e
    simp only [BitVec.toNat_ofNat] at this
    omega
  dsimp only
  rw [e, if_neg hne]
  simp only [emitProgress, emit, encode_rspAck, encode_progress]
  rw [hop]; rfl

/-- The answer of a resumed start (R279, `info = 1`). -/
theorem announce_resumed {p : Profile} {kind : Byte} {r : Request} {start total done0 : Nat} {s : State}
    (hpw : s.env.power = .on) (h2 : total < 2 ^ 32) (hd : done0 ≤ total) (hop : s.op = freshOp s.cfg p kind r start total) :
    announce 1 (takeOver p start done0 s) =
        { s with
          seq := if done0 = total then .completed else s.seq
          op := resumedOp s.cfg p kind r start total done0 s.cp.hash
          tx := s.tx ++ ackFrame s.cfg kind 1 ++ progressFrame s.cfg (BitVec.ofNat 32 done0) (BitVec.ofNat 32 total) ++
            (if done0 = total then completeFrame s.cfg kind (BitVec.ofNat 32 total) else [])
          cp := (announce 1 (takeOver p start done0 s)).cp
          env := (announce 1 (takeOver p start done0 s)).env } ∧
      (if done0 = total then (announce 1 (takeOver p start done0 s)).cp.valid = false
      else (announce 1 (takeOver p start done0 s)).cp = s.cp ∧ (announce 1 (takeOver p start done0 s)).env = s.env) := by
  have eop : (takeOver p start done0 s).op = resumedOp s.cfg p kind r start total done0 s.cp.hash := by
    simp only [takeOver, resumedOp, hop]
    simp only [freshOp, cursorAt, setCursor]
    by_cases hk : kind = s.cfg.commands.erase <;> simp [hk]
  have et : takeOver p start done0 s = { s with op := resumedOp s.cfg p kind r start total done0 s.cp.hash } := by
    rw [← eop]; rfl
  rw [et]
  unfold announce
  dsimp only
  have ed : (emitProgress (emit (.rspAck (resumedOp s.cfg p kind r start total done0 s.cp.hash).opKind 1)
      { s with op := resumedOp s.cfg p kind r start total done0 s.cp.hash })).op =
      resumedOp s.cfg p kind r start total done0 s.cp.hash := rfl
  rw [ed]
  have e0 : (resumedOp s.cfg p kind r start total done0 s.cp.hash).opDone = BitVec.ofNat 32 done0 := rfl
  have e1 : (resumedOp s.cfg p kind r start total done0 s.cp.hash).opTotal = BitVec.ofNat 32 total := rfl
  have e2 : (resumedOp s.cfg p kind r start total done0 s.cp.hash).opKind = kind := rfl
  have ee : BitVec.ofNat 32 done0 = BitVec.ofNat 32 total ↔ done0 = total := by
    constructor
    · intro e
      have := congrArg BitVec.toNat e
      simp only [BitVec.toNat_ofNat] at this; omega
    · rintro rfl; rfl
  rw [e0, e1]
  by_cases hdt : done0 = total
  · rw [if_pos (ee.2 hdt)]
    simp only [hdt, if_true]
    obtain ⟨cp, hcv, hce⟩ := @clearCp_on
      { (emitProgress (emit (.rspAck (resumedOp s.cfg p kind r start total total s.cp.hash).opKind 1)
          { s with op := resumedOp s.cfg p kind r start total total s.cp.hash })) with seq := .completed } hpw
    simp only [emitComplete, completeOp, hce]
    refine ⟨?_, hcv⟩
    simp only [emitProgress, emit, encode_rspAck, encode_progress, encode_complete]
    rfl
  · rw [if_neg (fun h => hdt (ee.1 h))]
    simp only [hdt, if_false]
    refine ⟨?_, rfl, rfl⟩
    simp only [emitProgress, emit, encode_rspAck, encode_progress]
    simp [e0, e1, e2]

/-- The units a checkpoint in range leaves done (R257). -/
theorem cpDone_eq {c : Config} {p : Profile} {cp : Checkpoint} {kind : Byte} {start total : Nat}
    (h : cpInRange c p cp kind start total = true) :
    cpDone c p cp kind start =
        (if kind = c.commands.erase then cp.block.toNat else cp.block.toNat * p.pagesPerBlock + cp.page.toNat) - start + 1 ∧
      cpDone c p cp kind start ≤ total := by
  unfold cpInRange at h
  unfold cpDone
  by_cases hk : kind = c.commands.erase
  · rw [if_pos hk] at h ⊢
    rw [if_pos (show kind = c.commands.erase from hk)]
    simp only [Bool.and_eq_true, decide_eq_true_eq] at h
    exact ⟨rfl, by omega⟩
  · rw [if_neg hk] at h ⊢
    rw [if_neg (show ¬kind = c.commands.erase from hk)]
    simp only [Bool.and_eq_true, decide_eq_true_eq] at h
    exact ⟨rfl, by omega⟩

/-! ## Frame errors (R363) -/

/-- Below 255 the counter counts. -/
theorem bumpFrameErr_counts {s : State} (h : s.op.frameErrCnt.toNat < 255) :
    bumpFrameErr s =
      (s.op.frameErrCnt.toNat + 1, { s with op := { s.op with frameErrCnt := s.op.frameErrCnt + 1 } }) := if_pos h

/-- From 255 on the sum is a free value, and the counter keeps its low 8 bits. -/
theorem bumpFrameErr_overflow {s : State} (h : ¬s.op.frameErrCnt.toNat < 255) :
    ∃ n, bumpFrameErr s =
      (n, { s with
        op := { s.op with frameErrCnt := BitVec.ofNat 8 n }, env := { s.env with drawn := s.env.drawn + 1 } }) :=
  ⟨_, if_neg h⟩

/-- Counting a frame error writes `FRAME_ERR_CNT` and, past 255, uses up an answer. -/
theorem bumpFrameErr_frame (s : State) :
    (bumpFrameErr s).2 =
      { s with
        op := { s.op with frameErrCnt := (bumpFrameErr s).2.op.frameErrCnt }
        env := { s.env with drawn := (bumpFrameErr s).2.env.drawn } } := by
  unfold bumpFrameErr
  split <;> rfl

/-- Outside a running Write a FrameError is one `RSP_FAILED`. -/
theorem onFrameError_else (cause : Cause) {s : State}
    (h : ¬(s.seq = .running ∧ s.op.opKind = s.cfg.commands.write)) : onFrameError cause s = reject cause 0x00 s := if_neg h

/-! ## Autotune (R201) -/

/-- Drawn bytes depend on the answers alone. -/
theorem drawBytes_congr (n : Nat) {s t : State} (h : s.env = t.env) :
    (drawBytes n s).1 = (drawBytes n t).1 ∧ (drawBytes n s).2.env = (drawBytes n t).2.env := by
  induction n generalizing s t with
  | zero => exact ⟨rfl, h⟩
  | succ n ih =>
    have h1 : (draw s).1 = (draw t).1 ∧ (draw s).2.env = (draw t).2.env := by
      rw [draw_congr h]; exact ⟨rfl, rfl⟩
    obtain ⟨h3, h4⟩ := ih h1.2
    simp only [drawBytes, h1.1, h3, h4, and_self]

/-- The `i`-th `n` bytes drawn from a state depend on the environment's answers alone. -/
theorem drawBytes_iterate_congr (n i : Nat) {s t : State} (h : s.env = t.env) :
    ((fun u => (drawBytes n u).2)^[i] s).env = ((fun u => (drawBytes n u).2)^[i] t).env := by
  induction i generalizing s t with
  | zero => exact h
  | succ i ih => exact ih (drawBytes_congr n h).2

/-- The bus cycles of an identifier read that brings `bytes` (R194). -/
theorem idCycles_eq (bytes : List Byte) (s : State) :
    idCycles bytes s =
      { s with
        die := { s.die with latch := .idle }
        trace := s.trace ++ .cmd s.cfg.opReadId :: .addr 0x00 :: bytes.map .dataRd } := rfl

/-- The pass over the candidates (R201): the first `k` trial reads equal the reference, the next one, if there is one, does
not, and the `k`-th candidate stays, `best` for `k = 0`. -/
theorem autotuneLoop_spec (ref : List Byte) (cs : List Timing) (best : Timing) {s : State} (hl : s.die.latch = .idle)
    (trial : Nat → List Byte)
    (ht : ∀ i, trial i = (drawBytes s.cfg.idLen ((fun t => (drawBytes s.cfg.idLen t).2)^[i] s)).1) :
    ∃ k, k ≤ cs.length ∧ (∀ i, i < k → trial i = ref) ∧ (k < cs.length → trial k ≠ ref) ∧
      autotuneLoop ref cs best s =
        { s with
          ses := { s.ses with timing := if k = 0 then best else (cs[k - 1]?).getD best }
          trace := s.trace ++
            (((List.range (min (k + 1) cs.length)).map trial).map
              (fun bytes => .cmd s.cfg.opReadId :: .addr 0x00 :: bytes.map .dataRd)).flatten
          env := ((fun t => (drawBytes s.cfg.idLen t).2)^[min (k + 1) cs.length] s).env } := by
  induction cs generalizing best s trial with
  | nil => exact ⟨0, by simp, by simp, by simp, by simp [autotuneLoop, setTiming]⟩
  | cons c cs ih =>
    have e1 : (drawBytes s.cfg.idLen (setTiming c s)).1 = trial 0 := by
      rw [ht 0]; exact (drawBytes_congr _ (s := setTiming c s) (t := s) rfl).1
    have e2 : (trialReadId (setTiming c s)).2 =
        { s with
          ses := { s.ses with timing := c }
          trace := s.trace ++ .cmd s.cfg.opReadId :: .addr 0x00 :: (trial 0).map .dataRd
          env := (drawBytes s.cfg.idLen s).2.env } := by
      have he : (drawBytes s.cfg.idLen (setTiming c s)).2.env = (drawBytes s.cfg.idLen s).2.env :=
      (drawBytes_congr _ (s := setTiming c s) (t := s) rfl).2
      have hf : (drawBytes s.cfg.idLen (setTiming c s)).2 =
          { setTiming c s with env := (drawBytes s.cfg.idLen (setTiming c s)).2.env } := by rw [drawBytes_frame]
      simp only [trialReadId, idCycles_eq, setTiming_cfg, e1]
      rw [hf, he]
      simp [setTiming, ← hl]
    have e3 : (trialReadId (setTiming c s)).1 = trial 0 := e1
    rw [autotuneLoop]
    simp only [e2, e3]
    by_cases h0 : trial 0 = ref
    · rw [if_pos h0]
      obtain ⟨k, h1, h2, h3, h4⟩ := ih c
        (s := { s with
          ses := { s.ses with timing := c }
          trace := s.trace ++ .cmd s.cfg.opReadId :: .addr 0x00 :: (trial 0).map .dataRd
          env := (drawBytes s.cfg.idLen s).2.env }) hl (fun i => trial (i + 1))
        (fun i => by
          rw [ht (i + 1), Function.iterate_succ_apply]
          refine (drawBytes_congr _ ?_).1
          exact drawBytes_iterate_congr s.cfg.idLen i (s := (drawBytes s.cfg.idLen s).2) rfl)
      refine ⟨k + 1, by simpa using h1, ?_, fun h => h3 (by simpa using h), ?_⟩
      · intro i hi
        cases i with
        | zero => exact h0
        | succ i => exact h2 i (by omega)
      · rw [h4]
        have hm : min (k + 1 + 1) (c :: cs).length = min (k + 1) cs.length + 1 := by simp
        have henv : ((fun t => (drawBytes s.cfg.idLen t).2)^[min (k + 1) cs.length]
            { s with
              ses := { s.ses with timing := c }
              trace := s.trace ++ .cmd s.cfg.opReadId :: .addr 0x00 :: (trial 0).map .dataRd
              env := (drawBytes s.cfg.idLen s).2.env }).env =
            ((fun t => (drawBytes s.cfg.idLen t).2)^[min (k + 1) cs.length] (drawBytes s.cfg.idLen s).2).env :=
          drawBytes_iterate_congr _ _ rfl
        have htm : (if k = 0 then c else (cs[k - 1]?).getD c) = ((c :: cs)[k]?).getD best := by
          cases k with
          | zero => rfl
          | succ k =>
            have : k < cs.length := by omega
            simp [this]
        simp only [hm, List.range_succ_eq_map, List.map_cons, List.map_map, List.flatten_cons,
          Function.iterate_succ_apply, henv, htm]
        simp [Function.comp_def]
    · rw [if_neg h0]
      refine ⟨0, by simp, by simp, fun _ => h0, ?_⟩
      simp [setTiming]

/-! ## The listing and the die reset of `REDETECT` (R173, R340) -/

theorem emitEntries_eq (n : Nat) (l : List Profile) (s : State) :
    emitEntries n l s =
      { s with
        tx := s.tx ++ ((l.zipIdx n).map (fun e => encodeFrame s.cfg s.cfg.responses.listEntry (BitVec.ofNat 8 e.2 :: e.1.name))).flatten } := by
  induction l generalizing n s with
  | nil => simp [emitEntries]
  | cons p r ih =>
    rw [emitEntries, ih]
    simp [emit, encode, Instr.space, Instr.codeByte, Instr.operands]

/-- ChipNotDetected is one `RSP_FAILED` and the listing. -/
theorem rejectNoChip_eq (ctx : Byte) (s : State) :
    rejectNoChip ctx s = { s with tx := s.tx ++ failedFrame s.cfg 0x15 ctx ++ listingFrames s.cfg } := by
  simp [rejectNoChip, emitListing, emitEntries_eq, reject, emit, Cause.code, encode, Instr.space,
    Instr.codeByte, Instr.operands, listingFrames, failedFrame]

theorem busReset_cons {s : State} {b : Nat} {r : List Nat} (h : s.env.draws = b :: r) :
    busReset s =
      (decide (b < s.cfg.readyTimeoutReset),
        { s with
          env := { s.env with draws := r }
          die := { s.die with latch := .idle }
          trace := s.trace ++ .cmd s.cfg.opReset :: waitTrace b s.cfg.readyTimeoutReset }) := by
  unfold busReset
  have hw := @waitReady_congr s (sendCommand s.cfg.opReset s) s.cfg.readyTimeoutReset rfl
  dsimp only
  rw [hw, draw_cons h]
  simp [sendCommand, cycles, State.setLatch]

/-- A reset that becomes ready in time, after waits that ran out. -/
theorem resetRetry_ready {busy : List Nat} {k : Nat} {rest : List Nat} (n : Nat) {s : State}
    (hd : s.env.draws = busy ++ k :: rest) (hl : busy.length ≤ n) (hb : ∀ b ∈ busy, s.cfg.readyTimeoutReset ≤ b)
    (hk : k < s.cfg.readyTimeoutReset) :
    resetRetry n s =
      (true,
        { s with
          env := { s.env with draws := rest }
          die := { s.die with latch := .idle }
          trace := s.trace ++
            (busy.map (fun _ => BusCycle.cmd s.cfg.opReset :: List.replicate s.cfg.readyTimeoutReset (.rb false))).flatten ++
            (BusCycle.cmd s.cfg.opReset :: (List.replicate k (.rb false) ++ [.rb true])) }) := by
  induction n generalizing busy s with
  | zero =>
    match busy, hl with
    | [], _ =>
      rw [resetRetry, busReset_cons hd]
      simp [hk, waitTrace]
  | succ n ih =>
    match busy, hl with
    | [], _ =>
      rw [resetRetry, busReset_cons hd]
      simp [hk, waitTrace]
    | b :: bs, hl =>
      have hb0 := hb b (by simp)
      rw [resetRetry, busReset_cons (b := b) (r := bs ++ k :: rest) hd]
      rw [if_neg (by simp; omega)]
      dsimp only
      rw [@ih bs
        { s with
          env := { s.env with draws := bs ++ k :: rest }
          die := { s.die with latch := .idle }
          trace := s.trace ++ .cmd s.cfg.opReset :: waitTrace b s.cfg.readyTimeoutReset }
        rfl (by simpa using hl) (fun x hx => hb x (by simp [hx])) hk]
      simp [waitTrace, Nat.not_lt.2 hb0]

/-- A reset all of whose `n + 1` waits run out. -/
theorem resetRetry_timeout {busy rest : List Nat} (n : Nat) {s : State} (hd : s.env.draws = busy ++ rest)
    (hl : busy.length = n + 1) (hb : ∀ b ∈ busy, s.cfg.readyTimeoutReset ≤ b) :
    resetRetry n s =
      (false,
        { s with
          env := { s.env with draws := rest }
          die := { s.die with latch := .idle }
          trace := s.trace ++
            (busy.map (fun _ => BusCycle.cmd s.cfg.opReset :: List.replicate s.cfg.readyTimeoutReset (.rb false))).flatten }) := by
  induction n generalizing busy s with
  | zero =>
    match busy, hl with
    | [b], _ =>
      have hb0 := hb b (by simp)
      rw [resetRetry, busReset_cons (b := b) (r := rest) hd]
      simp [waitTrace, Nat.not_lt.2 hb0]
  | succ n ih =>
    match busy, hl with
    | b :: bs, hl =>
      have hb0 := hb b (by simp)
      rw [resetRetry, busReset_cons (b := b) (r := bs ++ rest) hd]
      rw [if_neg (by simp; omega)]
      dsimp only
      rw [@ih bs
        { s with
          env := { s.env with draws := bs ++ rest }
          die := { s.die with latch := .idle }
          trace := s.trace ++ .cmd s.cfg.opReset :: waitTrace b s.cfg.readyTimeoutReset }
        rfl (by simpa using hl) (fun x hx => hb x (by simp [hx]))]
      simp [waitTrace, Nat.not_lt.2 hb0]

end Sys2Proof.Machine
end

