-- ==== Sys2Proof/Laws/PerInstr.lean ====
section
/-! SUPPORT. The per-instruction family `TableByte`: where spec/opcode_table.json looks for the code of an instruction, its
encoding under the default parameters has the byte of its row. -/

namespace Sys2Proof.Laws

/-- The "match" byte of the instruction's row of spec/opcode_table.json. -/
def tableByte : Instr → Byte
  | .status => 0x01
  | .read _ => 0x02
  | .write _ => 0x03
  | .erase _ => 0x04
  | .cancel => 0x05
  | .pause => 0x06
  | .resumeOp => 0x07
  | .setResume _ => 0x08
  | .powerCheck => 0x09
  | .select _ => 0x0A
  | .redetect => 0x0B
  | .exit => 0x0C
  | .data _ => 0x10
  | .rspAck _ _ => 0x80
  | .rspModel _ _ => 0x81
  | .rspProgress _ _ _ => 0x82
  | .rspComplete _ _ => 0x83
  | .rspFailed _ _ => 0x84
  | .rspPower _ _ => 0x85
  | .rspListStart _ => 0x86
  | .rspListEntry _ _ => 0x87
  | .rspListEnd => 0x88
  | .rspData _ => 0x89
  | .unitRaw _ => 0x00
  | .unitRle _ => 0x01
  | .unitBlank => 0x02
  | .opReadSetup _ => 0x00
  | .opReadConfirm _ => 0x30
  | .opProgSetup _ _ => 0x80
  | .opProgConfirm => 0x10
  | .opEraseSetup _ => 0x60
  | .opEraseConfirm => 0xD0
  | .opReadStatus => 0x70
  | .opReadId => 0x90
  | .opReset => 0xFF

/-- The offset of that byte: the `CMD` byte of a frame stands at offset 2 (spec/30_encoding.md R90), the tag of a stream unit and
a bus opcode at offset 0 (R113, R118). -/
def tableOffset (i : Instr) : Nat :=
  match i.space with
  | .command | .response => 2
  | .unit | .bus => 0

/-- The encoding has the byte of the instruction's row at the row's offset. -/
def TableByte.Statement (i : Instr) : Prop := (encode Config.default i)[tableOffset i]? = some (tableByte i)

theorem TableByte.status : TableByte.Statement .status := rfl

theorem TableByte.read (r : Request) : TableByte.Statement (.read r) := rfl

theorem TableByte.write (r : Request) : TableByte.Statement (.write r) := rfl

theorem TableByte.erase (r : Request) : TableByte.Statement (.erase r) := rfl

theorem TableByte.cancel : TableByte.Statement .cancel := rfl

theorem TableByte.pause : TableByte.Statement .pause := rfl

theorem TableByte.resumeOp : TableByte.Statement .resumeOp := rfl

theorem TableByte.setResume (mode : Byte) : TableByte.Statement (.setResume mode) := rfl

theorem TableByte.powerCheck : TableByte.Statement .powerCheck := rfl

theorem TableByte.select (index : Byte) : TableByte.Statement (.select index) := rfl

theorem TableByte.redetect : TableByte.Statement .redetect := rfl

theorem TableByte.exit : TableByte.Statement .exit := rfl

theorem TableByte.data (unit : List Byte) : TableByte.Statement (.data unit) := rfl

theorem TableByte.rspAck (cmd info : Byte) : TableByte.Statement (.rspAck cmd info) := rfl

theorem TableByte.rspModel (index : Byte) (name : List Byte) : TableByte.Statement (.rspModel index name) := rfl

theorem TableByte.rspProgress (percent : Byte) (completed total : U32) : TableByte.Statement (.rspProgress percent completed total) := rfl

theorem TableByte.rspComplete (kind : Byte) (units : U32) : TableByte.Statement (.rspComplete kind units) := rfl

theorem TableByte.rspFailed (cause context : Byte) : TableByte.Statement (.rspFailed cause context) := rfl

theorem TableByte.rspPower (millivolts : U16) (low : Bool) : TableByte.Statement (.rspPower millivolts low) := rfl

theorem TableByte.rspListStart (n : Byte) : TableByte.Statement (.rspListStart n) := rfl

theorem TableByte.rspListEntry (index : Byte) (name : List Byte) : TableByte.Statement (.rspListEntry index name) := rfl

theorem TableByte.rspListEnd : TableByte.Statement .rspListEnd := rfl

theorem TableByte.rspData (unit : List Byte) : TableByte.Statement (.rspData unit) := rfl

theorem TableByte.unitRaw (body : List Byte) : TableByte.Statement (.unitRaw body) := rfl

theorem TableByte.unitRle (tokens : List RunToken) : TableByte.Statement (.unitRle tokens) := rfl

theorem TableByte.unitBlank : TableByte.Statement .unitBlank := rfl

theorem TableByte.opReadSetup (addr : List Byte) : TableByte.Statement (.opReadSetup addr) := rfl

theorem TableByte.opReadConfirm (n : U16) : TableByte.Statement (.opReadConfirm n) := rfl

theorem TableByte.opProgSetup (addr bytes : List Byte) : TableByte.Statement (.opProgSetup addr bytes) := rfl

theorem TableByte.opProgConfirm : TableByte.Statement .opProgConfirm := rfl

theorem TableByte.opEraseSetup (addr : List Byte) : TableByte.Statement (.opEraseSetup addr) := rfl

theorem TableByte.opEraseConfirm : TableByte.Statement .opEraseConfirm := rfl

theorem TableByte.opReadStatus : TableByte.Statement .opReadStatus := rfl

theorem TableByte.opReadId : TableByte.Statement .opReadId := rfl

theorem TableByte.opReset : TableByte.Statement .opReset := rfl

end Sys2Proof.Laws
end

