-- ==== Sys2Proof/Tests/Slice0.lean ====
section
/-! SUPPORT. Small tests: every check of WellFormed refuses an ill-formed term, one written-out word decodes to every
constructor, one step of every instruction gives what a vector of spec/95_test_vectors.md (named in each comment) gives, and
every statement's hypotheses are met by a concrete state. -/

set_option Elab.async false

namespace Sys2Proof.Machine.Tests

/-! ## States the tests use (the fixture of spec/41_chip_profile.md R175) -/

/-- `TEST` held, after reset. -/
def held : State := { State.reset with ses := { State.reset.ses with profile := 0 } }

/-- With answers ready. -/
def answers (d : List Nat) (s : State) : State := { s with env := { s.env with draws := d } }

/-- With every row of the fixture's array erased. -/
def blank (s : State) : State := s.setArr (eraseRows [] 0 8 10)

/-- With row `r` holding `bs`. -/
def withRow (r : Nat) (bs : List Byte) (s : State) : State := s.setArr (writeRun s.die.arr (cellAddr r 0) bs)

/-- With an operation running: kind, start, total, done, cursor. -/
def operating (kind : Byte) (start total done block : U32) (page : U16) (s : State) : State :=
  { s with
    seq := .running
    op :=
      { s.op with opKind := kind, opStart := start, opTotal := total, opDone := done, curBlock := block, curPage := page } }

/-- With a valid checkpoint. -/
def withCp (kind : Byte) (block : U32) (page : U16) (hash : U32) (s : State) : State :=
  { s with cp := { valid := true, kind := kind, block := block, page := page, hash := hash, token := 0 } }

/-- A Write of 2 pages from row 0, nothing done. -/
def writing : State := operating 0x03 0 2 0 0 0 (blank held)

/-- A Read of the 8 pages, at row 0. -/
def reading : State := operating 0x02 0 8 0 0 0 (blank held)

/-- An Erase of the 4 blocks, at block 0. -/
def erasing : State := operating 0x04 0 4 0 0 0 held

/-- The state a next outcome carries. -/
def after : Host.Outcome State Fault Refusal → Option State
  | .next t => some t
  | .fault _ => none
  | .refused _ => none

/-- What a next outcome has emitted. -/
def sent (o : Host.Outcome State Fault Refusal) : Option (List Byte) := (after o).map (fun t => t.tx)

/-- What a next outcome has put on the bus. -/
def bus (o : Host.Outcome State Fault Refusal) : Option (List BusCycle) := (after o).map (fun t => t.trace)

/-! ## WellFormed refuses each ill-formed term -/

theorem test_wf_name_empty : nameOk [] = false := by decide +kernel
theorem test_wf_name_long : nameOk (List.replicate 33 0x41) = false := by decide +kernel
theorem test_wf_name_unprintable : nameOk [0x1F] = false ∧ nameOk [0x7F] = false := by decide +kernel
theorem test_wf_name_good : nameOk (List.replicate 32 0x7E) = true := by decide +kernel
theorem test_wf_profile_good : Profile.test.ok Config.default = true := by decide +kernel
theorem test_wf_profile_name : { Profile.test with name := [] }.ok Config.default = false := by decide +kernel
theorem test_wf_profile_id : { Profile.test with id := [] }.ok Config.default = false := by decide +kernel
theorem test_wf_profile_unit_zero : { Profile.test with pageSize := 0, oobSize := 0 }.ok Config.default = false := by decide +kernel
theorem test_wf_profile_unit_large : { Profile.test with pageSize := 32767, oobSize := 1 }.ok Config.default = false := by
  decide +kernel
theorem test_wf_profile_no_pages : { Profile.test with pagesPerBlock := 0 }.ok Config.default = false := by decide +kernel
theorem test_wf_profile_no_blocks : { Profile.test with blockCount := 0 }.ok Config.default = false := by decide +kernel
theorem test_wf_profile_rows_cycles : Profile.test.ok { Config.default with rowCycles := 0 } = false := by decide +kernel
theorem test_wf_profile_rows_u32 :
    { Profile.test with blockCount := 2147483648 }.ok { Config.default with rowCycles := 5 } = false := by decide +kernel
theorem test_wf_profile_pages_u16 : { Profile.test with pagesPerBlock := 65536 }.ok Config.default = false := by decide +kernel
theorem test_wf_profile_payload : Profile.test.ok { Config.default with maxPayload := 20 } = false := by decide +kernel
theorem test_wf_config_good : Config.default.ok = true := by decide +kernel
theorem test_wf_config_timeouts :
    { Config.default with readyTimeoutRead := 0 }.ok = false ∧ { Config.default with readyTimeoutProg := 0 }.ok = false ∧
      { Config.default with readyTimeoutErase := 0 }.ok = false ∧ { Config.default with readyTimeoutReset := 0 }.ok = false := by
  decide +kernel
theorem test_wf_config_power : { Config.default with powerFailCount := 0 }.ok = false := by decide +kernel
theorem test_wf_config_run :
    { Config.default with maxRun := 0 }.ok = false ∧ { Config.default with maxRun := 256 }.ok = false := by decide +kernel
theorem test_wf_config_table_long :
    { Config.default with profileTable := List.replicate 256 Profile.test }.ok = false := by decide +kernel
theorem test_wf_config_table_bad :
    { Config.default with profileTable := [{ Profile.test with blockCount := 0 }] }.ok = false := by decide +kernel
theorem test_wf_profile_id_long :
    { Profile.test with id := [1, 2, 3, 4, 5, 6] }.ok Config.default = false ∧
      { Profile.test with id := [1, 2, 3, 4, 5] }.ok Config.default = true := by decide +kernel
theorem test_wf_codes_distinct : Config.default.codesDistinct = true := by decide +kernel
theorem test_wf_commands_clash :
    { Config.default with commands := { CommandCodes.default with erase := 0x02 } }.commandsDistinct = false := by decide +kernel
theorem test_wf_responses_clash :
    { Config.default with responses := { ResponseCodes.default with listEnd := 0x80 } }.responsesDistinct = false := by
  decide +kernel
theorem test_wf_opcodes_clash : { Config.default with opReset := 0x30 }.opcodesDistinct = false := by decide +kernel

/-- A configuration whose frames carry no payload at all. -/
def narrow : Config := { Config.default with maxPayload := 0 }

theorem test_wf_data : (Instr.data [0x02]).wf narrow = false ∧ (Instr.rspData [0x02]).wf narrow = false := by decide +kernel
theorem test_wf_names : (Instr.rspModel 0 []).wf narrow = false ∧ (Instr.rspListEntry 0 []).wf narrow = false := by decide +kernel
theorem test_wf_rle_empty : (Instr.unitRle []).wf Config.default = false := by decide +kernel
theorem test_wf_rle_zero : (Instr.unitRle [⟨0xAA, 0⟩]).wf Config.default = false := by decide +kernel
theorem test_wf_addresses :
    (Instr.opReadSetup [0, 0, 5, 0]).wf Config.default = false ∧ (Instr.opProgSetup [0] []).wf Config.default = false ∧
      (Instr.opEraseSetup [6, 0]).wf Config.default = false := by decide +kernel
theorem test_wf_requests :
    (Instr.read ⟨0, 0, 0, 1⟩).wf narrow = false ∧ (Instr.write ⟨0, 0, 0, 1⟩).wf narrow = false ∧
      (Instr.erase ⟨0, 0, 0, 1⟩).wf narrow = false := by decide +kernel
theorem test_wf_one_byte :
    (Instr.setResume 1).wf narrow = false ∧ (Instr.select 0).wf narrow = false ∧ (Instr.rspListStart 1).wf narrow = false := by
  decide +kernel
theorem test_wf_responses :
    (Instr.rspProgress 0 0 1).wf narrow = false ∧ (Instr.rspComplete 2 1).wf narrow = false ∧
      (Instr.rspAck 2 0).wf narrow = false ∧ (Instr.rspFailed 1 0).wf narrow = false ∧
      (Instr.rspPower 3000 false).wf narrow = false := by decide +kernel

/-! ## One written-out word for every constructor (spec/30_encoding.md R90, R93, R94, R100 to R114, R118) -/

theorem test_decode_status : decode Config.default .command [0xA5, 0x5A, 0x01, 0, 0, 0, 0, 0x01, 0, 0, 0] = .ok .status := by
  decide +kernel
theorem test_decode_read :
    decode Config.default .command
        [0xA5, 0x5A, 0x02, 0x0B, 0, 0, 0, 0x03, 0x01, 0x02, 0, 0, 0x04, 0x05, 0x06, 0, 0, 0x07, 0x29, 0, 0, 0] =
      .ok (.read ⟨0x03, 0x00000201, 0x0504, 0x07000006⟩) := by decide +kernel
theorem test_decode_write :
    decode Config.default .command
        [0xA5, 0x5A, 0x03, 0x0B, 0, 0, 0, 0x04, 0, 0, 0, 0, 0, 0, 0x02, 0, 0, 0, 0x14, 0, 0, 0] =
      .ok (.write ⟨0x04, 0, 0, 2⟩) := by decide +kernel
theorem test_decode_erase :
    decode Config.default .command
        [0xA5, 0x5A, 0x04, 0x0B, 0, 0, 0, 0, 0x02, 0, 0, 0, 0, 0, 0x03, 0, 0, 0, 0x14, 0, 0, 0] =
      .ok (.erase ⟨0, 2, 0, 3⟩) := by decide +kernel
theorem test_decode_cancel : decode Config.default .command [0xA5, 0x5A, 0x05, 0, 0, 0, 0, 0x05, 0, 0, 0] = .ok .cancel := by
  decide +kernel
theorem test_decode_pause : decode Config.default .command [0xA5, 0x5A, 0x06, 0, 0, 0, 0, 0x06, 0, 0, 0] = .ok .pause := by
  decide +kernel
theorem test_decode_resumeOp :
    decode Config.default .command [0xA5, 0x5A, 0x07, 0, 0, 0, 0, 0x07, 0, 0, 0] = .ok .resumeOp := by decide +kernel
theorem test_decode_setResume :
    decode Config.default .command [0xA5, 0x5A, 0x08, 0x01, 0, 0, 0, 0x01, 0x0A, 0, 0, 0] = .ok (.setResume 0x01) := by
  decide +kernel
theorem test_decode_powerCheck :
    decode Config.default .command [0xA5, 0x5A, 0x09, 0, 0, 0, 0, 0x09, 0, 0, 0] = .ok .powerCheck := by decide +kernel
theorem test_decode_select :
    decode Config.default .command [0xA5, 0x5A, 0x0A, 0x01, 0, 0, 0, 0x05, 0x10, 0, 0, 0] = .ok (.select 0x05) := by
  decide +kernel
theorem test_decode_redetect :
    decode Config.default .command [0xA5, 0x5A, 0x0B, 0, 0, 0, 0, 0x0B, 0, 0, 0] = .ok .redetect := by decide +kernel
theorem test_decode_exit : decode Config.default .command [0xA5, 0x5A, 0x0C, 0, 0, 0, 0, 0x0C, 0, 0, 0] = .ok .exit := by
  decide +kernel
theorem test_decode_data :
    decode Config.default .command [0xA5, 0x5A, 0x10, 0x03, 0, 0, 0, 0x01, 0x11, 0x0A, 0x2F, 0, 0, 0] =
      .ok (.data [0x01, 0x11, 0x0A]) := by decide +kernel
theorem test_decode_rspAck :
    decode Config.default .response [0xA5, 0x5A, 0x80, 0x02, 0, 0, 0, 0x02, 0x01, 0x85, 0, 0, 0] = .ok (.rspAck 0x02 0x01) := by
  decide +kernel
theorem test_decode_rspModel :
    decode Config.default .response [0xA5, 0x5A, 0x81, 0x05, 0, 0, 0, 0, 0x54, 0x45, 0x53, 0x54, 0xC6, 0x01, 0, 0] =
      .ok (.rspModel 0 [0x54, 0x45, 0x53, 0x54]) := by decide +kernel
theorem test_decode_rspProgress :
    decode Config.default .response
        [0xA5, 0x5A, 0x82, 0x09, 0, 0, 0, 0x19, 0x02, 0, 0, 0, 0x08, 0, 0, 0, 0xAE, 0, 0, 0] =
      .ok (.rspProgress 0x19 2 8) := by decide +kernel
theorem test_decode_rspComplete :
    decode Config.default .response [0xA5, 0x5A, 0x83, 0x05, 0, 0, 0, 0x04, 0x04, 0, 0, 0, 0x90, 0, 0, 0] =
      .ok (.rspComplete 0x04 4) := by decide +kernel
theorem test_decode_rspFailed :
    decode Config.default .response [0xA5, 0x5A, 0x84, 0x02, 0, 0, 0, 0x15, 0x0A, 0xA5, 0, 0, 0] =
      .ok (.rspFailed 0x15 0x0A) := by decide +kernel
theorem test_decode_rspPower :
    decode Config.default .response [0xA5, 0x5A, 0x85, 0x03, 0, 0, 0, 0xF0, 0x0A, 0x01, 0x83, 0x01, 0, 0] =
      .ok (.rspPower 2800 true) := by decide +kernel
theorem test_decode_rspListStart :
    decode Config.default .response [0xA5, 0x5A, 0x86, 0x01, 0, 0, 0, 0x01, 0x88, 0, 0, 0] = .ok (.rspListStart 1) := by
  decide +kernel
theorem test_decode_rspListEntry :
    decode Config.default .response [0xA5, 0x5A, 0x87, 0x05, 0, 0, 0, 0, 0x54, 0x45, 0x53, 0x54, 0xCC, 0x01, 0, 0] =
      .ok (.rspListEntry 0 [0x54, 0x45, 0x53, 0x54]) := by decide +kernel
theorem test_decode_rspListEnd :
    decode Config.default .response [0xA5, 0x5A, 0x88, 0, 0, 0, 0, 0x88, 0, 0, 0] = .ok .rspListEnd := by decide +kernel
theorem test_decode_rspData :
    decode Config.default .response [0xA5, 0x5A, 0x89, 0x01, 0, 0, 0, 0x02, 0x8C, 0, 0, 0] = .ok (.rspData [0x02]) := by
  decide +kernel
theorem test_decode_unitRaw :
    decode Config.default .unit [0x00, 0x01, 0x02, 0x03, 0x04] = .ok (.unitRaw [0x01, 0x02, 0x03, 0x04]) := by decide +kernel
theorem test_decode_unitRle :
    decode Config.default .unit [0x01, 0xAA, 0x08, 0xFF, 0x02] = .ok (.unitRle [⟨0xAA, 0x08⟩, ⟨0xFF, 0x02⟩]) := by
  decide +kernel
theorem test_decode_unitBlank : decode Config.default .unit [0x02] = .ok .unitBlank := by decide +kernel
theorem test_decode_opReadSetup :
    decode Config.default .bus [0x00, 0, 0, 0x2C, 0x01, 0] = .ok (.opReadSetup [0, 0, 0x2C, 0x01, 0]) := by decide +kernel
theorem test_decode_opReadConfirm : decode Config.default .bus [0x30, 0x0A, 0x01] = .ok (.opReadConfirm 266) := by
  decide +kernel
theorem test_decode_opProgSetup :
    decode Config.default .bus [0x80, 0, 0, 0x03, 0, 0, 0xAA, 0x55] = .ok (.opProgSetup [0, 0, 0x03, 0, 0] [0xAA, 0x55]) := by
  decide +kernel
theorem test_decode_opProgConfirm : decode Config.default .bus [0x10] = .ok .opProgConfirm := by decide +kernel
theorem test_decode_opEraseSetup :
    decode Config.default .bus [0x60, 0x06, 0, 0] = .ok (.opEraseSetup [0x06, 0, 0]) := by decide +kernel
theorem test_decode_opEraseConfirm : decode Config.default .bus [0xD0] = .ok .opEraseConfirm := by decide +kernel
theorem test_decode_opReadStatus : decode Config.default .bus [0x70] = .ok .opReadStatus := by decide +kernel
theorem test_decode_opReadId : decode Config.default .bus [0x90, 0x00] = .ok .opReadId := by decide +kernel
theorem test_decode_opReset : decode Config.default .bus [0xFF] = .ok .opReset := by decide +kernel

/-- R6: the codes are parameters. With another code for `READ`, that byte is `READ` and the default one is unknown. -/
theorem test_decode_other_code :
    decodeCommand { Config.default with commands := { CommandCodes.default with read := 0x42 } } 0x42 (List.replicate 11 0) =
        .ok (.read ⟨0, 0, 0, 0⟩) ∧
      decodeCommand { Config.default with commands := { CommandCodes.default with read := 0x42 } } 0x02 (List.replicate 11 0) =
        .error (.unknownCommand 0x02) := by decide +kernel

/-- R95: a response code is no command; R274: a request of 10 bytes is refused for its length. -/
theorem test_decode_rejects :
    decode Config.default .command [0xA5, 0x5A, 0x80, 0, 0, 0, 0, 0x80, 0, 0, 0] = .error (.unknownCommand 0x80) ∧
      decode Config.default .command [0xA5, 0x5A, 0x01, 0x01, 0, 0, 0, 0, 0x02, 0, 0, 0] = .error (.badLength 0x01) ∧
      decode Config.default .command [0xA5, 0x5A, 0x01, 0, 0, 0, 0, 0x01, 0, 0, 0x01] = .error .checksum ∧
      decode Config.default .unit [0x01, 0xAA, 0x00] = .error .badUnit ∧
      decode Config.default .bus [0x31] = .error .unknownOpcode := by decide +kernel

/-- The table words of two rows, and their run as the first step after reset. -/
theorem test_table_word_redetect : decodeTableWord 8 0x0B = some .redetect := by decide +kernel
theorem test_fetch_setResume :
    sent (step (State.reset.withFetchWord 16 0x0108)) =
      some [0xA5, 0x5A, 0x80, 0x02, 0, 0, 0, 0x08, 0x00, 0x8A, 0, 0, 0] := by decide +kernel

/-! ## One step of every instruction, against spec/95_test_vectors.md -/

/-- 48_commands.md R330: `MODEL(none)` and `MODEL(TEST)`. -/
theorem test_status_none : sent (exec .status State.reset) = some [0xA5, 0x5A, 0x81, 0x01, 0, 0, 0, 0xFF, 0x81, 0x01, 0, 0] := by
  decide +kernel
theorem test_status_held :
    sent (exec .status held) =
      some [0xA5, 0x5A, 0x81, 0x05, 0, 0, 0, 0, 0x54, 0x45, 0x53, 0x54, 0xC6, 0x01, 0, 0] := by decide +kernel

/-- 2.8, second row: `READ` full over a checkpoint at (0, 1) resumes after it. -/
theorem test_read_resumes :
    (after (exec (.read ⟨0x08, 0, 0, 0⟩) (withCp 0x02 0 1 0x3E3BD1E5 held))).map
        (fun t => (t.tx, t.op.opDone, t.op.curBlock, t.op.curPage, t.op.bytesDone, t.op.lastHash)) =
      some
        ([0xA5, 0x5A, 0x80, 0x02, 0, 0, 0, 0x02, 0x01, 0x85, 0, 0, 0,
          0xA5, 0x5A, 0x82, 0x09, 0, 0, 0, 0x19, 0x02, 0, 0, 0, 0x08, 0, 0, 0, 0xAE, 0, 0, 0], 2, 1, 0, 20, 0x3E3BD1E5) := by
  decide +kernel
/-- 2.7: `READ(b3, p1, n2)` runs off the end. -/
theorem test_read_refused :
    sent (exec (.read ⟨0, 3, 1, 2⟩) held) = some [0xA5, 0x5A, 0x84, 0x02, 0, 0, 0, 0x07, 0x02, 0x8F, 0, 0, 0] := by
  decide +kernel
/-- 2.8: `WRITE(b0 p0 n4)` over a checkpoint whose row reads `22` x 10 resumes, and one whose row does not restarts. -/
theorem test_write_resumes :
    (after (exec (.write ⟨0, 0, 0, 4⟩) (answers [0] (withRow 1 (List.replicate 10 0x22) (withCp 0x03 0 1 0x1283CB45 held))))).map
        (fun t => (t.tx, t.op.curBlock, t.cp.valid)) =
      some
        ([0xA5, 0x5A, 0x80, 0x02, 0, 0, 0, 0x03, 0x01, 0x86, 0, 0, 0,
          0xA5, 0x5A, 0x82, 0x09, 0, 0, 0, 0x32, 0x02, 0, 0, 0, 0x04, 0, 0, 0, 0xC3, 0, 0, 0], 1, true) := by decide +kernel
theorem test_write_restarts :
    (after (exec (.write ⟨0, 0, 0, 4⟩) (answers [0] (withRow 1 (List.replicate 10 0x20) (withCp 0x03 0 1 0x1283CB45 held))))).map
        (fun t => (t.tx, t.op.curBlock, t.cp.valid)) =
      some
        ([0xA5, 0x5A, 0x80, 0x02, 0, 0, 0, 0x03, 0x02, 0x87, 0, 0, 0,
          0xA5, 0x5A, 0x82, 0x09, 0, 0, 0, 0, 0, 0, 0, 0, 0x04, 0, 0, 0, 0x8F, 0, 0, 0], 0, false) := by decide +kernel
/-- P1: `ERASE` full chip starts; 2.7: `ERASE` page 1 is refused. -/
theorem test_erase_starts :
    sent (exec (.erase ⟨0x08, 0, 0, 0⟩) held) =
      some [0xA5, 0x5A, 0x80, 0x02, 0, 0, 0, 0x04, 0, 0x86, 0, 0, 0,
        0xA5, 0x5A, 0x82, 0x09, 0, 0, 0, 0, 0, 0, 0, 0, 0x04, 0, 0, 0, 0x8F, 0, 0, 0] := by decide +kernel
theorem test_erase_refused :
    sent (exec (.erase ⟨0, 0, 1, 1⟩) held) = some [0xA5, 0x5A, 0x84, 0x02, 0, 0, 0, 0x07, 0x04, 0x91, 0, 0, 0] := by
  decide +kernel
/-- R333: `CANCEL` during a Write, and with nothing active. -/
theorem test_cancel :
    (after (exec .cancel writing)).map (fun t => (t.tx, t.seq, t.op.cause)) =
      some ([0xA5, 0x5A, 0x84, 0x02, 0, 0, 0, 0x16, 0x03, 0x9F, 0, 0, 0], .cancelled, 0x16) := by decide +kernel
theorem test_cancel_refused :
    sent (exec .cancel held) = some [0xA5, 0x5A, 0x84, 0x02, 0, 0, 0, 0x04, 0x05, 0x8F, 0, 0, 0] := by decide +kernel
/-- R288, R254: a pause before the second page of block 0 names page 0. -/
theorem test_pause :
    (after (exec .pause (operating 0x03 0 4 1 0 1 held))).map (fun t => (t.tx, t.seq, t.cp.valid, t.cp.block, t.cp.page)) =
      some ([0xA5, 0x5A, 0x80, 0x02, 0, 0, 0, 0x06, 0, 0x88, 0, 0, 0], .paused, true, 0, 0) := by decide +kernel
theorem test_pause_refused :
    sent (exec .pause held) = some [0xA5, 0x5A, 0x84, 0x02, 0, 0, 0, 0x04, 0x06, 0x90, 0, 0, 0] := by decide +kernel
/-- R335. -/
theorem test_resumeOp :
    (after (exec .resumeOp { writing with seq := .paused })).map (fun t => (t.tx, t.seq)) =
      some ([0xA5, 0x5A, 0x80, 0x02, 0, 0, 0, 0x07, 0, 0x89, 0, 0, 0], .running) := by decide +kernel
theorem test_resumeOp_refused :
    sent (exec .resumeOp writing) = some [0xA5, 0x5A, 0x84, 0x02, 0, 0, 0, 0x04, 0x07, 0x91, 0, 0, 0] := by decide +kernel
/-- R337. -/
theorem test_setResume_zero :
    (after (exec (.setResume 0) (withCp 0x02 0 1 0 held))).map (fun t => (t.tx, t.ses.resumeMode, t.cp.valid)) =
      some ([0xA5, 0x5A, 0x80, 0x02, 0, 0, 0, 0x08, 0, 0x8A, 0, 0, 0], false, false) := by decide +kernel
theorem test_setResume_refused :
    sent (exec (.setResume 2) held) = some [0xA5, 0x5A, 0x84, 0x02, 0, 0, 0, 0x07, 0x08, 0x95, 0, 0, 0] := by decide +kernel
/-- 2.9: a sample of 2800 and one of 3000 (equal is not low). -/
theorem test_powerCheck_low :
    (after (exec .powerCheck (answers [2800] held))).map (fun t => (t.tx, t.pwr.low, t.pwr.lowCount)) =
      some ([0xA5, 0x5A, 0x85, 0x03, 0, 0, 0, 0xF0, 0x0A, 0x01, 0x83, 0x01, 0, 0], true, 0) := by decide +kernel
theorem test_powerCheck_equal :
    sent (exec .powerCheck (answers [3000] held)) =
      some [0xA5, 0x5A, 0x85, 0x03, 0, 0, 0, 0xB8, 0x0B, 0, 0x4B, 0x01, 0, 0] := by decide +kernel
/-- R339: `SELECT(0)` and `SELECT(5)`. -/
theorem test_select :
    (after (exec (.select 0) State.reset)).map (fun t => (t.tx, t.ses.profile)) =
      some ([0xA5, 0x5A, 0x81, 0x05, 0, 0, 0, 0, 0x54, 0x45, 0x53, 0x54, 0xC6, 0x01, 0, 0], 0) := by decide +kernel
theorem test_select_refused :
    sent (exec (.select 5) State.reset) =
      some [0xA5, 0x5A, 0x84, 0x02, 0, 0, 0, 0x15, 0x0A, 0xA5, 0, 0, 0,
        0xA5, 0x5A, 0x86, 0x01, 0, 0, 0, 0x01, 0x88, 0, 0, 0,
        0xA5, 0x5A, 0x87, 0x05, 0, 0, 0, 0, 0x54, 0x45, 0x53, 0x54, 0xCC, 0x01, 0, 0,
        0xA5, 0x5A, 0x88, 0, 0, 0, 0, 0x88, 0, 0, 0] := by decide +kernel
/-- 2.5: a die that answers 01 02 03 04 05, and one busy through four resets. -/
theorem test_redetect :
    (after (exec .redetect (answers [0] State.reset))).map (fun t => (t.tx, t.ses.profile, t.trace)) =
      some
        ([0xA5, 0x5A, 0x81, 0x05, 0, 0, 0, 0, 0x54, 0x45, 0x53, 0x54, 0xC6, 0x01, 0, 0], 0,
          [.cmd 0xFF, .rb true, .cmd 0x90, .addr 0, .dataRd 1, .dataRd 2, .dataRd 3, .dataRd 4, .dataRd 5]) := by
  decide +kernel
theorem test_redetect_timeout :
    (after (exec .redetect (answers [9, 9, 9, 9] held))).map (fun t => (t.tx, t.ses.profile)) =
      some ([0xA5, 0x5A, 0x84, 0x02, 0, 0, 0, 0x10, 0x0B, 0xA1, 0, 0, 0], 0xFF) := by decide +kernel
/-- R341, with a Write active. -/
theorem test_exit :
    (after (exec .exit (answers [7] writing))).map (fun t => (t.tx, t.seq, t.ses.profile, t.ses.sessionToken)) =
      some
        ([0xA5, 0x5A, 0x84, 0x02, 0, 0, 0, 0x16, 0x03, 0x9F, 0, 0, 0,
          0xA5, 0x5A, 0x80, 0x02, 0, 0, 0, 0x0C, 0, 0x8E, 0, 0, 0], .idle, 0xFF, 7) := by decide +kernel
/-- R336: the first of 4 pages; 2.6: the cycles of a program. -/
theorem test_data :
    (after (exec (.data (0x00 :: List.replicate 10 0xAA)) (answers [0, 0] (operating 0x03 0 4 0 0 0 (blank held))))).map
        (fun t => (t.tx, readRow t.die.arr 0 10, t.op.lastHash)) =
      some
        ([0xA5, 0x5A, 0x82, 0x09, 0, 0, 0, 0x19, 0x01, 0, 0, 0, 0x04, 0, 0, 0, 0xA9, 0, 0, 0], List.replicate 10 0xAA,
          0xE7E5BF45) := by decide +kernel
theorem test_data_refused :
    sent (exec (.data []) writing) = some [0xA5, 0x5A, 0x84, 0x02, 0, 0, 0, 0x08, 0x10, 0x9E, 0, 0, 0] := by decide +kernel
/-- P2: the last page of a Write under verify completes it. -/
theorem test_unitRaw :
    (after (exec (.unitRaw (List.replicate 10 0x55))
        (answers [0, 0, 0] (operating 0x03 0 2 1 0 1 (blank { held with op := { held.op with optVerify := true } }))))).map
        (fun t => (t.tx, t.seq, readRow t.die.arr 1 10, t.op.curBlock, t.op.curPage)) =
      some
        ([0xA5, 0x5A, 0x82, 0x09, 0, 0, 0, 0x64, 0x02, 0, 0, 0, 0x02, 0, 0, 0, 0xF3, 0, 0, 0,
          0xA5, 0x5A, 0x83, 0x05, 0, 0, 0, 0x03, 0x02, 0, 0, 0, 0x8D, 0, 0, 0], .completed, List.replicate 10 0x55, 1, 0) := by
  decide +kernel
/-- 2.3: `01 11 0A`; 20_memory.md R68: over `0F` x 10 it leaves `01` x 10. -/
theorem test_unitRle :
    (after (exec (.unitRle [⟨0x11, 0x0A⟩]) (answers [0, 0] (withRow 0 (List.replicate 10 0x0F) writing)))).map
        (fun t => (readRow t.die.arr 0 10, t.op.opDone)) =
      some (List.replicate 10 0x01, 1) := by decide +kernel
/-- R284: under skip-blank a blank unit is counted, and the bus is not used. -/
theorem test_unitBlank :
    (after (exec .unitBlank { writing with op := { writing.op with optSkipBlank := true } })).map
        (fun t => (t.trace, t.op.opDone, t.op.lastHash)) =
      some ([], 1, 0x3E3BD1E5) := by decide +kernel

/-- 2.2, 2.5, P1: the frames of the vectors. -/
theorem test_rspAck : sent (exec (.rspAck 0x02 0x01) held) = some [0xA5, 0x5A, 0x80, 0x02, 0, 0, 0, 0x02, 0x01, 0x85, 0, 0, 0] := by
  decide +kernel
theorem test_rspModel :
    sent (exec (.rspModel 0xFF []) held) = some [0xA5, 0x5A, 0x81, 0x01, 0, 0, 0, 0xFF, 0x81, 0x01, 0, 0] := by decide +kernel
theorem test_rspProgress :
    sent (exec (.rspProgress 0x4B 3 4) held) =
      some [0xA5, 0x5A, 0x82, 0x09, 0, 0, 0, 0x4B, 0x03, 0, 0, 0, 0x04, 0, 0, 0, 0xDD, 0, 0, 0] := by decide +kernel
theorem test_rspComplete :
    sent (exec (.rspComplete 0x02 8) held) =
      some [0xA5, 0x5A, 0x83, 0x05, 0, 0, 0, 0x02, 0x08, 0, 0, 0, 0x92, 0, 0, 0] := by decide +kernel
theorem test_rspFailed :
    sent (exec (.rspFailed 0x03 0x80) held) = some [0xA5, 0x5A, 0x84, 0x02, 0, 0, 0, 0x03, 0x80, 0x09, 0x01, 0, 0] := by
  decide +kernel
theorem test_rspPower :
    sent (exec (.rspPower 3300 false) held) =
      some [0xA5, 0x5A, 0x85, 0x03, 0, 0, 0, 0xE4, 0x0C, 0, 0x78, 0x01, 0, 0] := by decide +kernel
theorem test_rspListStart :
    sent (exec (.rspListStart 1) held) = some [0xA5, 0x5A, 0x86, 0x01, 0, 0, 0, 0x01, 0x88, 0, 0, 0] := by decide +kernel
theorem test_rspListEntry :
    sent (exec (.rspListEntry 0 [0x54, 0x45, 0x53, 0x54]) held) =
      some [0xA5, 0x5A, 0x87, 0x05, 0, 0, 0, 0, 0x54, 0x45, 0x53, 0x54, 0xCC, 0x01, 0, 0] := by decide +kernel
theorem test_rspListEnd : sent (exec .rspListEnd held) = some [0xA5, 0x5A, 0x88, 0, 0, 0, 0, 0x88, 0, 0, 0] := by decide +kernel
theorem test_rspData :
    sent (exec (.rspData [0x01, 0xFF, 0x0A]) held) =
      some [0xA5, 0x5A, 0x89, 0x03, 0, 0, 0, 0x01, 0xFF, 0x0A, 0x96, 0x01, 0, 0] := by decide +kernel

/-- 2.6: the cycles of `MemRead(5, 10)`, one opcode at a time. -/
theorem test_opReadSetup :
    bus (exec (.opReadSetup [0, 0, 5, 0, 0]) held) =
      some [.cmd 0x00, .addr 0, .addr 0, .addr 5, .addr 0, .addr 0] := by decide +kernel
theorem test_opReadConfirm :
    bus (exec (.opReadConfirm 2) (answers [0] (withRow 5 [0xAB, 0xCD] (held.setLatch (.read [0, 0, 5, 0, 0]))))) =
      some [.cmd 0x30, .rb true, .dataRd 0xAB, .dataRd 0xCD] := by decide +kernel
/-- R190: busy for 3 samples of 4 is Ready, busy for 4 is Timeout. -/
theorem test_opReadConfirm_timeout :
    bus (exec (.opReadConfirm 2) (answers [4] (held.setLatch (.read [0, 0, 5, 0, 0])))) =
      some [.cmd 0x30, .rb false, .rb false, .rb false, .rb false] := by decide +kernel
/-- 2.6: `MemWrite(3, d)`. -/
theorem test_opProgSetup :
    bus (exec (.opProgSetup [0, 0, 3, 0, 0] [0xAA, 0x55]) held) =
      some [.cmd 0x80, .addr 0, .addr 0, .addr 3, .addr 0, .addr 0, .dataWr 0xAA, .dataWr 0x55] := by decide +kernel
theorem test_opProgConfirm :
    (after (exec .opProgConfirm
        (answers [3, 2] (withRow 3 (List.replicate 10 0x0F) (held.setLatch (.prog [0, 0, 3, 0, 0] (List.replicate 10 0xAA))))))).map
        (fun t => (t.trace, readRow t.die.arr 3 10, t.die.status)) =
      some ([.cmd 0x10, .rb false, .rb false, .rb false, .rb true], List.replicate 10 0x0A, 0x42) := by decide +kernel
/-- 2.6: `MemErase(3)`: rows 6 and 7. -/
theorem test_opEraseSetup :
    bus (exec (.opEraseSetup [6, 0, 0]) held) = some [.cmd 0x60, .addr 6, .addr 0, .addr 0] := by decide +kernel
theorem test_opEraseConfirm :
    (after (exec .opEraseConfirm
        (answers [0, 0] (withRow 5 [1] (withRow 7 [1, 2, 3] (held.setLatch (.erase [6, 0, 0]))))))).map
        (fun t => (t.trace, readRow t.die.arr 7 10, readRow t.die.arr 6 10, readRow t.die.arr 5 1)) =
      some ([.cmd 0xD0, .rb true], List.replicate 10 0xFF, List.replicate 10 0xFF, [1]) := by decide +kernel
theorem test_opReadStatus : bus (exec .opReadStatus held) = some [.cmd 0x70, .dataRd 0x40] := by decide +kernel
theorem test_opReadId :
    bus (exec .opReadId held) =
      some [.cmd 0x90, .addr 0, .dataRd 1, .dataRd 2, .dataRd 3, .dataRd 4, .dataRd 5] := by decide +kernel
theorem test_opReset : bus (exec .opReset (answers [1] held)) = some [.cmd 0xFF, .rb false, .rb true] := by decide +kernel

/-- P1: a Read unit of a blank row under skip-blank; an Erase unit saves its block. -/
theorem test_readUnit :
    sent (step (answers [0] { reading with op := { reading.op with optSkipBlank := true } })) =
      some [0xA5, 0x5A, 0x89, 0x01, 0, 0, 0, 0x02, 0x8C, 0, 0, 0,
        0xA5, 0x5A, 0x82, 0x09, 0, 0, 0, 0x0C, 0x01, 0, 0, 0, 0x08, 0, 0, 0, 0xA0, 0, 0, 0] := by decide +kernel
theorem test_eraseUnit :
    (after (step (answers [0, 0] erasing))).map (fun t => (t.tx, t.cp.valid, t.cp.block, t.cp.page, t.op.curBlock)) =
      some ([0xA5, 0x5A, 0x82, 0x09, 0, 0, 0, 0x19, 0x01, 0, 0, 0, 0x04, 0, 0, 0, 0xA9, 0, 0, 0], true, 0, 1, 1) := by
  decide +kernel

/-! ## The hypotheses of the statements are met

One theorem (or one for each clause) for every statement of Obligations.lean that has hypotheses, at boundary values where the
statement gives a range. -/

/-- The fixture's geometry agrees with the die's for every row up to the last. -/
theorem rowOk_held (row : Nat) (h : row < 8) : RowOk Profile.test row held := ⟨by decide +kernel, by decide +kernel, h⟩

theorem inv_writing : Inv writing := by
  refine ⟨by decide +kernel, by decide +kernel, rfl, by decide +kernel, .inr (by decide +kernel), fun _ => ⟨Profile.test, by decide +kernel, .inl ?_, ?_⟩, trivial⟩
  · exact ⟨.inr rfl, by decide +kernel, by decide +kernel, by decide +kernel⟩
  · decide +kernel

theorem inv_erasing : Inv (operating 0x04 0 4 3 3 0 held) := by
  refine ⟨by decide +kernel, by decide +kernel, rfl, by decide +kernel, .inr (by decide +kernel), fun _ => ⟨Profile.test, by decide +kernel, .inr ?_, ?_⟩, trivial⟩
  · exact ⟨rfl, by decide +kernel, rfl, by decide +kernel⟩
  · decide +kernel

theorem inv_reading_mid : Inv (operating 0x02 0 8 3 1 1 held) := by
  refine ⟨by decide +kernel, by decide +kernel, rfl, by decide +kernel, .inr (by decide +kernel), fun _ => ⟨Profile.test, by decide +kernel, .inl ?_, ?_⟩, trivial⟩
  · exact ⟨.inl rfl, by decide +kernel, by decide +kernel, by decide +kernel⟩
  · decide +kernel

theorem witness_DecodeOfEncode :
    Config.default.codesDistinct = true ∧ (Instr.read ⟨0xFF, 0xFFFFFFFF, 0xFFFF, 0xFFFFFFFF⟩).wf Config.default = true := by
  decide +kernel
theorem witness_EncodeOfDecode : decode Config.default .bus [0x90, 0x00] = .ok .opReadId := by decide +kernel
theorem witness_FrameRoundTrip :
    Decoder.reset.rxState = .hunt0 ∧ ([] : List Byte).length ≤ Config.default.maxPayload ∧
      (List.replicate 65536 (0xA5 : Byte)).length ≤ Config.default.maxPayload ∧
      (List.replicate 65536 (0xA5 : Byte)).length < 2 ^ 32 := by
  refine ⟨rfl, by decide, ?_, ?_⟩ <;> rw [List.length_replicate] <;> decide
/-- The `CMD` byte, the first payload byte and the last checksum byte of the frame `A5 5A 08 01 00 00 00 01 0A 00 00 00`. -/
theorem witness_ChangedByte (j : Nat) (h : j = 2 ∨ j = 7 ∨ j = 11) :
    Decoder.reset.rxState = .hunt0 ∧ [(0x01 : Byte)].length ≤ Config.default.maxPayload ∧ [(0x01 : Byte)].length < 2 ^ 32 ∧
      (Config.default.checksum = .byteSum ∧ (j = 2 ∨ 7 ≤ j) ∨ 7 + [(0x01 : Byte)].length ≤ j) ∧ j < 11 + [(0x01 : Byte)].length ∧ (encodeFrame Config.default 0x08 [0x01])[j]? ≠ some 0xEE := by
  rcases h with rfl | rfl | rfl <;> decide +kernel
/-- `LEN = 65537`, and noise with a lone `A5` and a lone `5A`. -/
theorem witness_BadLengths :
    Decoder.reset.rxState = .hunt0 ∧
      Config.default.maxPayload <
        (0x01 : Byte).toNat + 256 * (0x00 : Byte).toNat + 65536 * (0x01 : Byte).toNat + 16777216 * (0x00 : Byte).toNat := by
  decide +kernel
theorem witness_Noise (i : Nat) :
    ¬(([0x00, 0xA5, 0xA5, 0x13, 0x5A] : List Byte)[i]? = some Config.default.magic0 ∧
      ([0x00, 0xA5, 0xA5, 0x13, 0x5A] : List Byte)[i + 1]? = some Config.default.magic1) := by
  match i with
  | 0 | 1 | 2 | 3 | 4 => decide
  | n + 5 => simp
theorem witness_StreamUnitRoundTrip :
    1 ≤ 1 ∧ 1 ≤ 255 ∧ 255 ≤ 255 ∧ 1 ≤ ([0xFF] : List Byte).length ∧ ([0xFF] : List Byte).length = 1 := by decide
theorem witness_HashTells : Config.default.hash = .mulXor ∧ (0x00 : Byte) ≠ 0x01 := by decide
theorem witness_ProgramAndErase : Memory.wf (eraseRows [] 0 8 10) = true ∧ 65536 ≤ 65536 := by decide +kernel
/-- One timed-out read, then one that answers; and two timed-out ones. -/
theorem witness_OnlyTimeouts_first :
    1 ≤ 1 ∧ (∀ i, i < 1 → (memRead 0 1 ((fun t => (memRead 0 1 t).2)^[i] (answers [9, 0] writing))).1 = .timeout) ∧
      (memRead 0 1 ((fun t => (memRead 0 1 t).2)^[1] (answers [9, 0] writing))).1 ≠ .timeout := by decide +kernel
theorem witness_OnlyTimeouts_all :
    ∀ i, i ≤ 1 → (memRead 0 1 ((fun t => (memRead 0 1 t).2)^[i] (answers [9, 9] writing))).1 = .timeout := by decide +kernel
theorem witness_ReadConfirm :
    (held.setLatch (.read (addrBytes held.cfg 0 7))).cfg.ok = true ∧
      RowOk Profile.test 7 (held.setLatch (.read (addrBytes held.cfg 0 7))) ∧ (10 : U16).toNat ≤ Profile.test.unitSize ∧
      (held.setLatch (.read (addrBytes held.cfg 0 7))).die.latch = .read (addrBytes held.cfg 0 7) :=
  ⟨by decide +kernel, ⟨by decide +kernel, by decide +kernel, by decide⟩, by decide, rfl⟩
theorem witness_ProgConfirm :
    (held.setLatch (.prog (addrBytes held.cfg 0 7) (List.replicate 10 0xAA))).cfg.ok = true ∧
      RowOk Profile.test 7 (held.setLatch (.prog (addrBytes held.cfg 0 7) (List.replicate 10 0xAA))) ∧
      (List.replicate 10 (0xAA : Byte)).length = Profile.test.unitSize ∧ held.env.power = .on ∧
      (held.setLatch (.prog (addrBytes held.cfg 0 7) (List.replicate 10 0xAA))).die.latch =
        .prog (addrBytes held.cfg 0 7) (List.replicate 10 0xAA) :=
  ⟨by decide +kernel, ⟨by decide +kernel, by decide +kernel, by decide⟩, by decide, rfl, rfl⟩
theorem witness_EraseConfirm :
    (held.setLatch (.erase (rowBytes held.cfg (3 * Profile.test.pagesPerBlock)))).cfg.ok = true ∧
      RowOk Profile.test (3 * Profile.test.pagesPerBlock)
        (held.setLatch (.erase (rowBytes held.cfg (3 * Profile.test.pagesPerBlock)))) ∧
      held.env.power = .on ∧
      (held.setLatch (.erase (rowBytes held.cfg (3 * Profile.test.pagesPerBlock)))).die.latch =
        .erase (rowBytes held.cfg (3 * Profile.test.pagesPerBlock)) :=
  ⟨by decide +kernel, ⟨by decide +kernel, by decide +kernel, by decide⟩, rfl, rfl⟩
theorem witness_StatusIdentifierAndReset : held.cfg.idLen ≤ held.die.nandId.length := by decide
theorem witness_BusOpcodes : Instr.opReset.space = .bus := rfl
/-- `held` with two candidate timings and answers for two trial reads: the first equals the reference, the second does not. -/
def tuning : State :=
  answers [1, 2, 3, 4, 5, 1, 2, 3, 4, 6]
    { held with cfg := { held.cfg with autotuneEn := true, autotuneCandidates := [⟨9, 9, 9⟩, ⟨8, 8, 8⟩] } }

/-- The first candidate passes and the second fails (R201): the first is kept. -/
theorem test_autotune_keeps_first : (autotune tuning).ses.timing = ⟨9, 9, 9⟩ ∧ (autotune tuning).env.draws = [] := by
  decide +kernel
theorem witness_Autotune :
    2 = tuning.cfg.autotuneCandidates.length ∧ [1, 2, 3, 4, 5] = tuning.die.nandId.take tuning.cfg.idLen ∧
      tuning.cfg.idLen ≤ tuning.die.nandId.length := by decide +kernel
/-- A request that is the last row, the last block, and one row too many. -/
theorem witness_RequestValidation :
    1 ≤ Profile.test.pagesPerBlock ∧ 1 ≤ Profile.test.blockCount ∧ validate held.cfg Profile.test 0x02 ⟨0, 3, 1, 1⟩ = some (7, 1) ∧
      validate held.cfg Profile.test 0x04 ⟨0, 3, 0, 1⟩ = some (3, 1) ∧ validate held.cfg Profile.test 0x04 ⟨0x08, 9, 9, 9⟩ = some (0, 4) ∧
      validate held.cfg Profile.test 0x02 ⟨0, 3, 1, 2⟩ = none := by decide +kernel
theorem witness_OperationStarts :
    requestOf held.cfg (.read ⟨0, 3, 1, 1⟩) = some (0x02, ⟨0, 3, 1, 1⟩) ∧ held.cfg.ok = true ∧ idleLike held.seq = true ∧
      heldProfile held = some Profile.test ∧ validate held.cfg Profile.test 0x02 ⟨0, 3, 1, 1⟩ = some (7, 1) ∧ held.cp.valid = false := by
  decide +kernel
/-- Another kind, out of range, `RESUME_MODE = 0`. -/
theorem witness_StaleCheckpoint :
    requestOf held.cfg (.read ⟨0, 0, 0, 2⟩) = some (0x02, ⟨0, 0, 0, 2⟩) ∧ held.cfg.ok = true ∧ idleLike held.seq = true ∧
      heldProfile held = some Profile.test ∧ validate held.cfg Profile.test 0x02 ⟨0, 0, 0, 2⟩ = some (0, 2) ∧
      (withCp 0x03 0 1 0 held).cp.valid = true ∧ held.env.power = .on ∧ (withCp 0x03 0 1 0 held).cp.kind ≠ 0x02 ∧
      cpInRange held.cfg Profile.test (withCp 0x02 1 0 0 held).cp 0x02 0 2 = false ∧
      { withCp 0x02 0 1 0 held with ses := { held.ses with resumeMode := false } }.ses.resumeMode = false := by decide +kernel
/-- A Read with units left, a Read with none left, an Erase. -/
theorem witness_ReadAndEraseResume :
    (0x02 : Byte) ≠ 0x03 ∧ validate held.cfg Profile.test 0x02 ⟨0x08, 0, 0, 0⟩ = some (0, 8) ∧
      (withCp 0x02 0 1 0x3E3BD1E5 held).cp.valid = true ∧ held.env.power = .on ∧
      (withCp 0x02 0 1 0x3E3BD1E5 held).cp.kind = 0x02 ∧ held.ses.resumeMode = true ∧ held.cfg.ok = true ∧
      idleLike held.seq = true ∧ heldProfile held = some Profile.test ∧
      cpInRange held.cfg Profile.test (withCp 0x02 0 1 0x3E3BD1E5 held).cp 0x02 0 8 = true ∧
      cpInRange held.cfg Profile.test (withCp 0x02 3 1 0 held).cp 0x02 0 8 = true ∧ 3 * 2 + 1 - 0 + 1 = 8 ∧
      validate held.cfg Profile.test 0x04 ⟨0x08, 0, 0, 0⟩ = some (0, 4) ∧
      cpInRange held.cfg Profile.test (withCp 0x04 1 1 0 held).cp 0x04 0 4 = true := by decide +kernel
/-- A Write checkpoint at row 1 of rows 0 to 3 (2.8), and one at the last row of the request. -/
theorem witness_WriteResumes :
    held.cfg.ok = true ∧ held.cfg.commandsDistinct = true ∧ idleLike held.seq = true ∧ validate held.cfg Profile.test 0x03 ⟨0, 0, 0, 4⟩ = some (0, 4) ∧
      (withCp 0x03 0 1 0x1283CB45 held).cp.valid = true ∧ held.env.power = .on ∧
      (withCp 0x03 0 1 0x1283CB45 held).cp.kind = 0x03 ∧ held.ses.resumeMode = true ∧
      cpInRange held.cfg Profile.test (withCp 0x03 0 1 0x1283CB45 held).cp 0x03 0 4 = true ∧
      cpInRange held.cfg Profile.test (withCp 0x03 1 1 0x1283CB45 held).cp 0x03 0 4 = true ∧
      (draw (answers [3] (withCp 0x03 0 1 0x1283CB45 held))).1 < held.cfg.readyTimeoutRead ∧
      chunkHash Config.default (readRow (withRow 1 (List.replicate 10 0x22) held).die.arr 1 10) = 0x1283CB45 ∧
      chunkHash Config.default (readRow (withRow 1 (List.replicate 10 0x20) held).die.arr 1 10) ≠ 0x1283CB45 := by
  decide +kernel
theorem witness_WriteResumes_row : RowOk Profile.test 1 (answers [3] (withCp 0x03 0 1 0x1283CB45 held)) :=
  ⟨by decide +kernel, by decide +kernel, by decide⟩
theorem witness_TimedOutReads :
    heldProfile (answers [4, 4, 4, 9] reading) = some Profile.test ∧
      (answers [4, 4, 4, 9] reading).env.draws = [4, 4, 4, 9] ++ [] ∧
      ([4, 4, 4, 9] : List Nat).length = reading.cfg.busRetryMax + 1 ∧ (∀ k ∈ [4, 4, 4, 9], reading.cfg.readyTimeoutRead ≤ k) ∧
      reading.rxq = [] ∧ reading.seq = .running ∧ reading.op.opKind = 0x02 := by decide +kernel
theorem witness_TimedOutReads_write :
    heldProfile (answers [4, 4, 4, 9] (withCp 0x03 0 1 0 held)) = some Profile.test ∧
      idleLike held.seq = true ∧ validate held.cfg Profile.test 0x03 ⟨0, 0, 0, 4⟩ = some (0, 4) ∧
      (withCp 0x03 0 1 0 held).cp.valid = true ∧ (withCp 0x03 0 1 0 held).cp.kind = 0x03 ∧ held.ses.resumeMode = true ∧
      cpInRange held.cfg Profile.test (withCp 0x03 0 1 0 held).cp 0x03 0 4 = true := by decide +kernel
theorem witness_BadRequests :
    requestOf held.cfg (.erase ⟨0, 0, 1, 1⟩) = some (0x04, ⟨0, 0, 1, 1⟩) ∧ idleLike State.reset.seq = true ∧
      State.reset.ses.profile = 0xFF ∧ idleLike held.seq = true ∧ heldProfile held = some Profile.test ∧
      validate held.cfg Profile.test 0x04 ⟨0, 0, 1, 1⟩ = none := by decide +kernel
theorem witness_BadUnits :
    unitPayload (.unitRle [⟨0xAA, 0x0B⟩]) = some [0x01, 0xAA, 0x0B] ∧ writing.seq = .running ∧ writing.op.opKind = 0x03 ∧
      heldProfile writing = some Profile.test ∧ decodeUnit Profile.test.unitSize [0x01, 0xAA, 0x0B] = none := by decide +kernel
theorem witness_RejectedCommands :
    active writing.seq = true ∧ active held.seq = false ∧ held.seq ≠ .running ∧ writing.seq ≠ .paused ∧
      (reading.seq ≠ .running ∨ reading.op.opKind ≠ 0x03) ∧ unitPayload .unitBlank = some [0x02] := by decide +kernel
theorem witness_StatusAndPowerCheck :
    State.reset.ses.profile = 0xFF ∧ heldProfile held = some Profile.test ∧
      (3000 : U16) = BitVec.ofNat 16 (draw (answers [3000] held)).1 := by decide +kernel
theorem witness_CancelAndResume : active writing.seq = true ∧ { writing with seq := .paused }.seq = .paused := by decide +kernel
/-- A pause with nothing done, inside a block, at the start of one, and in an Erase. -/
theorem witness_Pause : Inv writing ∧ writing.seq = .running ∧ writing.op.opDone = 0 := ⟨inv_writing, rfl, rfl⟩
theorem witness_Pause_mid :
    Inv (operating 0x02 0 8 3 1 1 held) ∧ (operating 0x02 0 8 3 1 1 held).seq = .running ∧
      (operating 0x02 0 8 3 1 1 held).op.opDone ≠ 0 := ⟨inv_reading_mid, rfl, by decide⟩
theorem witness_Pause_erase :
    Inv (operating 0x04 0 4 3 3 0 held) ∧ (operating 0x04 0 4 3 3 0 held).seq = .running ∧
      (operating 0x04 0 4 3 3 0 held).op.opDone ≠ 0 := ⟨inv_erasing, rfl, by decide⟩
theorem witness_SetResume : idleLike held.seq = true ∧ held.env.power = .on ∧ 1 < (0x02 : Byte).toNat ∧ 1 < (0xFF : Byte).toNat := by
  decide
theorem witness_Select :
    idleLike State.reset.seq = true ∧ State.reset.cfg.profileTable[(0 : Byte).toNat]? = some Profile.test ∧
      State.reset.cfg.profileTable.length ≤ (1 : Byte).toNat := by decide +kernel
/-- Three resets that time out and a fourth that is ready; a table that has the identifier and one that has not. -/
theorem witness_Redetect :
    idleLike held.seq = true ∧ (answers [4, 4, 9, 3] held).env.draws = [4, 4, 9] ++ 3 :: [] ∧
      ([4, 4, 9] : List Nat).length ≤ held.cfg.busRetryMax ∧ (∀ b ∈ [4, 4, 9], held.cfg.readyTimeoutReset ≤ b) ∧
      3 < held.cfg.readyTimeoutReset ∧ held.cfg.idLen ≤ held.die.nandId.length ∧
      detect held.cfg (held.die.nandId.take held.cfg.idLen) = some 0 ∧ held.cfg.profileTable[0]? = some Profile.test ∧
      detect { held.cfg with profileTable := [] } (held.die.nandId.take held.cfg.idLen) = none := by decide +kernel
theorem witness_RedetectTimeout :
    idleLike held.seq = true ∧ (answers [4, 4, 9, 4, 1] held).env.draws = [4, 4, 9, 4] ++ [1] ∧
      ([4, 4, 9, 4] : List Nat).length = held.cfg.busRetryMax + 1 ∧ (∀ b ∈ [4, 4, 9, 4], held.cfg.readyTimeoutReset ≤ b) := by
  decide +kernel

/-- A Write under verify, at its last page. -/
def verifying : State :=
  answers [3, 2, 3] (operating 0x03 0 2 1 0 1 (blank { held with op := { held.op with optVerify := true } }))

theorem witness_DataUnit :
    unitPayload (.data (0x00 :: List.replicate 10 0x55)) = some (0x00 :: List.replicate 10 0x55) ∧ verifying.cfg.ok = true ∧ verifying.cfg.commandsDistinct = true ∧
      verifying.env.power = .on ∧ verifying.seq = .running ∧ verifying.op.opKind = 0x03 ∧
      verifying.op.opDone.toNat < verifying.op.opTotal.toNat ∧
      decodeUnit Profile.test.unitSize (0x00 :: List.replicate 10 0x55) = some (List.replicate 10 0x55) ∧
      verifying.op.optSkipBlank = false ∧ (draw verifying).1 < verifying.cfg.readyTimeoutProg ∧
      (draw (draw verifying).2).1 % 2 = 0 ∧ (draw (draw (draw verifying).2).2).1 < verifying.cfg.readyTimeoutRead := by
  decide +kernel
theorem witness_DataUnit_state : PageOpOk Profile.test verifying ∧ RowOk Profile.test (cursorRow Profile.test verifying) verifying :=
  ⟨⟨.inr rfl, by decide +kernel, by decide +kernel, by decide +kernel⟩, ⟨by decide +kernel, by decide +kernel, by decide +kernel⟩⟩
theorem witness_DataUnit_bits (j : Nat) (b : Byte) (h : (List.replicate 10 (0x55 : Byte))[j]? = some b) :
    cellByte verifying.die.arr (cellAddr (cursorRow Profile.test verifying) j) &&& b = b := by
  match j with
  | 0 | 1 | 2 | 3 | 4 | 5 | 6 | 7 | 8 | 9 => simp at h; subst h; decide +kernel
  | n + 10 => simp at h
theorem witness_BlankUnit :
    unitPayload .unitBlank = some [0x02] ∧ decodeUnit Profile.test.unitSize [0x02] = some (List.replicate 10 0xFF) ∧
      { writing with op := { writing.op with optSkipBlank := true } }.op.optSkipBlank = true ∧
      (∀ b ∈ List.replicate 10 (0xFF : Byte), b = 0xFF) ∧ writing.op.opDone.toNat < writing.op.opTotal.toNat := by
  decide +kernel
theorem witness_BlankUnit_state : PageOpOk Profile.test writing :=
  ⟨.inr rfl, by decide +kernel, by decide +kernel, by decide +kernel⟩
/-- A program that reports failure. -/
theorem witness_FailedProgram :
    (draw (answers [3, 1] writing)).1 < writing.cfg.readyTimeoutProg ∧ (draw (draw (answers [3, 1] writing)).2).1 % 2 = 1 ∧
      decodeUnit Profile.test.unitSize (0x00 :: List.replicate 10 0x55) = some (List.replicate 10 0x55) := by decide +kernel
/-- Four programs of `55` over a row of `AA`, each read back. -/
theorem witness_FailedVerify :
    ([(0, 0, 0), (3, 2, 3), (0, 0, 0), (0, 0, 0)] : List (Nat × Nat × Nat)).length = writing.cfg.verifyRetryMax + 1 ∧
      (∀ a ∈ ([(0, 0, 0), (3, 2, 3), (0, 0, 0), (0, 0, 0)] : List (Nat × Nat × Nat)),
        a.1 < writing.cfg.readyTimeoutProg ∧ a.2.1 % 2 = 0 ∧ a.2.2 < writing.cfg.readyTimeoutRead) ∧
      (answers [0, 0, 0, 3, 2, 3, 0, 0, 0, 0, 0, 0] verifying).env.draws =
        (([(0, 0, 0), (3, 2, 3), (0, 0, 0), (0, 0, 0)] : List (Nat × Nat × Nat)).map (fun a => [a.1, a.2.1, a.2.2])).flatten ++ [] ∧
      verifying.op.optVerify = true ∧ (List.replicate 10 (0x55 : Byte))[0]? = some 0x55 ∧
      cellByte (withRow 1 (List.replicate 10 0xAA) verifying).die.arr (cellAddr (cursorRow Profile.test verifying) 0) &&& 0x55 ≠
        0x55 := by decide +kernel

/-- `STATUS` one byte short, in the decoder and the queue. -/
theorem witness_StepRuns :
    held.cfg.ok = true ∧ Instr.status.wf held.cfg = true ∧ held.cfg.codesDistinct = true ∧ Instr.status.space = .command ∧
      Decoder.reset.rxState = .hunt0 ∧
      encode held.cfg .status = [0xA5, 0x5A, 0x01, 0, 0, 0, 0, 0x01, 0, 0] ++ [0] ∧ held.env.schedule = [] ∧
      { held with
        rxq := 0 :: [0xA5], dec := (rxBytes held.cfg Decoder.reset [0xA5, 0x5A, 0x01, 0, 0, 0, 0, 0x01, 0, 0]).2 }.rxq =
        0 :: [0xA5] := by decide +kernel
theorem witness_StepRuns_issue :
    { held with env := { held.env with schedule := [.issue .bus [0xFF]] } }.env.schedule =
      .issue Instr.opReset.space (encode held.cfg .opReset) :: [] := by decide +kernel
/-- Codes and lengths at the edges of the clauses. -/
theorem witness_Dispatch :
    (∀ k : Cmd, (0x0D : Byte) ≠ k.code held.cfg) ∧ 0x0D ≤ (0x0D : Byte).toNat ∧ (0x0D : Byte).toNat ≤ 0x0F ∧
      0x0D ≤ (0x0F : Byte).toNat ∧ 0x11 ≤ (0x11 : Byte).toNat ∧ 0x11 ≤ (0xFF : Byte).toNat ∧
      held.cfg.commands = CommandCodes.default ∧ held.cfg.commandsDistinct = true ∧ (0x02 : Byte) = held.cfg.commands.read ∧
      (List.replicate 10 (0 : Byte)).length ≠ 11 ∧ (0x0A : Byte) = held.cfg.commands.select ∧ ([] : List Byte).length ≠ 1 ∧
      (0x0C : Byte) = held.cfg.commands.exit ∧ ([0] : List Byte) ≠ [] := by
  refine ⟨fun k => ?_, ?_⟩
  · cases k <;> decide
  · decide +kernel
/-- Malformed payloads of each kind, for `U = 10`. -/
theorem witness_Dispatch_units :
    (0x03 : Byte) ≠ 0x00 ∧ (0x03 : Byte) ≠ 0x01 ∧ (0x03 : Byte) ≠ 0x02 ∧ ([0xAA] : List Byte).length ≠ 10 ∧
      ([0xAA] : List Byte).length % 2 = 1 ∧ ([0xAA, 0x00] : List Byte) = bytesOfTokens [⟨0xAA, 0x00⟩] ∧
      ([⟨0xAA, 0x0B⟩].map (fun t : RunToken => t.count.toNat)).sum ≠ 10 := by decide
/-- No Write running; one whose counter may grow, and one whose counter is full. -/
theorem witness_FrameErrors :
    ¬(held.seq = .running ∧ held.op.opKind = held.cfg.commands.write) ∧ writing.seq = .running ∧
      writing.op.opKind = writing.cfg.commands.write ∧ writing.op.frameErrCnt.toNat < 255 ∧
      { writing with op := { writing.op with frameErrCnt := 254 } }.op.frameErrCnt.toNat < 255 ∧
      { writing with op := { writing.op with frameErrCnt := 255 } }.op.frameErrCnt = 0xFF := by decide +kernel
theorem witness_ReadUnit :
    (answers [3] reading).cfg.ok = true ∧ reading.cfg.commandsDistinct = true ∧ reading.env.power = .on ∧ reading.rxq = [] ∧ reading.seq = .running ∧
      reading.op.opKind = 0x02 ∧ reading.op.opDone.toNat < reading.op.opTotal.toNat ∧
      (draw (answers [3] reading)).1 < reading.cfg.readyTimeoutRead := by decide +kernel
theorem witness_ReadUnit_state : PageOpOk Profile.test (answers [3] reading) ∧ RowOk Profile.test 0 (answers [3] reading) :=
  ⟨⟨.inl rfl, by decide +kernel, by decide +kernel, by decide +kernel⟩, ⟨by decide +kernel, by decide +kernel, by decide⟩⟩
/-- Under verify, two reads of the block follow. -/
theorem witness_EraseUnit :
    erasing.cfg.ok = true ∧ erasing.cfg.commandsDistinct = true ∧ erasing.env.power = .on ∧ erasing.rxq = [] ∧ erasing.seq = .running ∧
      erasing.op.opDone.toNat < erasing.op.opTotal.toNat ∧
      (answers [3, 0, 3, 3] erasing).env.draws = 3 :: 0 :: ([3, 3] ++ []) ∧ 3 < erasing.cfg.readyTimeoutErase ∧ 0 % 2 = 0 ∧
      ([3, 3] : List Nat).length =
        (if { erasing.op with optVerify := true }.optVerify then Profile.test.pagesPerBlock else 0) ∧
      (∀ b ∈ ([3, 3] : List Nat), b < erasing.cfg.readyTimeoutRead) ∧ erasing.op.optVerify = false := by decide +kernel
theorem witness_EraseUnit_state :
    EraseOpOk Profile.test erasing ∧ RowOk Profile.test (erasing.op.curBlock.toNat * Profile.test.pagesPerBlock) erasing :=
  ⟨⟨rfl, by decide +kernel, rfl, by decide +kernel⟩, ⟨by decide +kernel, by decide +kernel, by decide⟩⟩
theorem witness_Responses : Decoder.reset.rxState = .hunt0 ∧ (Instr.rspPower 0xFFFF true).wf held.cfg = true := by decide
theorem witness_SupplySamples : 1 = min (held.pwr.lowCount.toNat + 1) 255 := by decide
theorem witness_PersistentLowSupply :
    writing.cfg.ok = true ∧ writing.cfg.powerFailCount ≤ 255 ∧ active writing.seq = true ∧ writing.pwr.lowCount = 0 ∧
      (∀ mv ∈ ([2999, 0, 2999] : List U16), mv.toNat < writing.cfg.powerThresholdMv) ∧
      ([2999, 0, 2999] : List U16).length = writing.cfg.powerFailCount ∧
      ([2999, 0] : List U16).length < writing.cfg.powerFailCount := by
  refine ⟨by decide +kernel, by decide, rfl, rfl, fun mv h => ?_, rfl, by decide⟩
  have hc : writing.cfg.powerThresholdMv = 3000 := rfl
  simp only [List.mem_cons, List.not_mem_nil, or_false] at h
  rw [hc]
  rcases h with rfl | rfl | rfl <;> decide
theorem witness_Inactivity :
    writing.rxq = [] ∧ ¬(writing.seq = .running ∧ (writing.op.opKind = 0x02 ∨ writing.op.opKind = 0x04)) := by decide +kernel
/-- An Erase unit cut before, between and after its two effects, and a torn one. -/
theorem witness_PowerCut :
    (answers [0, 0, 1, 2] erasing).cfg.ok = true ∧ erasing.cfg.commandsDistinct = true ∧ erasing.env.power = .on ∧
      (after (powerOnDuring 0 false (answers [0, 0, 1, 2] erasing))).isSome = true ∧
      (after (powerOnDuring 0 true (answers [0, 0, 1, 2] erasing))).isSome = true ∧
      (after (powerOnDuring 1 false (answers [0, 0, 1, 2] erasing))).isSome = true ∧
      (after (powerOnDuring 2 false (answers [0, 0, 1, 2] erasing))).isSome = true := by decide +kernel
theorem witness_PowerCut_erase :
    erasing.op.opKind = erasing.cfg.commands.erase ∧ erasing.rxq = [] ∧ erasing.seq = .running ∧
      erasing.op.optVerify = false ∧ (answers [0, 0, 1, 2] erasing).env.draws = 0 :: 0 :: [1, 2] ∧
      0 < erasing.cfg.readyTimeoutErase ∧ 0 % 2 = 0 ∧
      (after (engineStep (answers [0, 0, 1, 2] erasing))).isSome = true := by decide +kernel
/-- The block is erased before the checkpoint is saved (R283, R286): a cut between the two leaves the old checkpoint. -/
theorem test_power_cut_between :
    (after (powerOnDuring 1 false (answers [0, 0, 1, 2] erasing))).map (fun t => (t.cp.valid, Memory.read t.die.arr 65536)) =
        some (false, some 0xFF) ∧
      (after (powerOnDuring 2 false (answers [0, 0, 1, 2] erasing))).map (fun t => t.cp.valid) = some true := by
  decide +kernel
/-- A Write and an Erase that stand in the array. -/
theorem witness_PowerCut_rows :
    writing.op.opKind = writing.cfg.commands.write ∧ RowOk Profile.test (cursorRow Profile.test writing) writing ∧
      EraseOpOk Profile.test (answers [0, 0, 1, 2] erasing) ∧
      RowOk Profile.test (erasing.op.curBlock.toNat * Profile.test.pagesPerBlock) (answers [0, 0, 1, 2] erasing) :=
  ⟨rfl, ⟨by decide +kernel, by decide +kernel, by decide +kernel⟩, ⟨rfl, by decide +kernel, rfl, by decide +kernel⟩,
    ⟨by decide +kernel, by decide +kernel, by decide⟩⟩
theorem witness_PowerCut_none : ¬(held.seq = .running ∧ (held.op.opKind = held.cfg.commands.write ∨
    held.op.opKind = held.cfg.commands.erase)) := by decide
theorem witness_CheckpointWrites : held.env.power = .on := rfl
theorem witness_BadConfiguration :
    { held.cfg with maxRun := 256 }.maxRun > 255 ∧ { held.cfg with powerFailCount := 0 }.powerFailCount = 0 := by decide
theorem witness_Inv_step : Inv writing ∧ (after (step writing)).isSome = true := ⟨inv_writing, by decide +kernel⟩
theorem witness_step_next : (after (step (answers [0, 0] erasing))).isSome = true := by decide +kernel
theorem witness_OtherInstructions :
    unitPayload .status = none ∧ (after (exec .status held)).isSome = true ∧ requestOf held.cfg .status = none ∧ Instr.status ≠ .pause ∧
      Instr.status ≠ .opProgConfirm ∧ Instr.status ≠ .opEraseConfirm := by decide +kernel
theorem witness_TxOnlyGrows : (after (step writing)).isSome = true ∧ nextTurn writing ≠ .powerOn := by decide +kernel
theorem witness_EveryFrame : (after (dispatchFrame 0x01 [] held)).isSome = true := by decide +kernel
theorem witness_SessionIsFixed :
    (after (step writing)).isSome = true ∧ active writing.seq = true ∧
      (after (step writing)).map (fun t => active t.seq) = some true := by decide +kernel
/-- An Erase unit that does not complete the operation. -/
theorem witness_ProgressIsMonotone :
    Inv (operating 0x04 0 4 3 3 0 held) ∧ active (operating 0x04 0 4 3 3 0 held).seq = true ∧
      (after (step (answers [0, 0] (operating 0x04 0 4 3 3 0 held)))).map (fun t => decide (t.seq ≠ .idle)) = some true :=
  ⟨inv_erasing, rfl, by decide +kernel⟩

end Sys2Proof.Machine.Tests
end

