-- ==== Sys2Proof/Proofs/Scope.lean ====
section
/-! SUPPORT. Configurations outside spec/00_scope.md R7 are refused at every step. -/

namespace Sys2Proof.Machine

theorem step_of_not_ok {s : State} (h : ¬ s.cfg.ok = true) : step s = .refused .invalidConfig :=
  if_neg h

/-- R7 on the parameters that belong to no profile. -/
theorem Config.ok_bounds {c : Config} (h : c.ok = true) :
    1 ≤ c.readyTimeoutRead ∧ 1 ≤ c.readyTimeoutProg ∧ 1 ≤ c.readyTimeoutErase ∧ 1 ≤ c.readyTimeoutReset ∧
      1 ≤ c.powerFailCount ∧ 1 ≤ c.maxRun ∧ c.maxRun ≤ 255 ∧ c.profileTable.length ≤ 255 := by
  simp only [Config.ok, Bool.and_eq_true, decide_eq_true_eq] at h
  obtain ⟨⟨⟨⟨⟨⟨⟨⟨hread, hprog⟩, herase⟩, hreset⟩, hpower⟩, hrun⟩, hrun'⟩, htable⟩, _⟩ := h
  exact ⟨hread, hprog, herase, hreset, hpower, hrun, hrun', htable⟩

/-- R7 on each profile of the table, whether or not a chip holds it. -/
theorem Config.profile_ok {c : Config} {p : Profile} (h : c.ok = true) (hp : p ∈ c.profileTable) : p.ok c = true := by
  simp only [Config.ok, Bool.and_eq_true, List.all_eq_true] at h
  exact h.2 p hp

/-- The bounds of `Profile.ok_bounds`, in the words of R7: the unit as page and spare bytes, the rows as a product, the row
address by its bits. -/
theorem Profile.ok_bounds_of_sizes {c : Config} {p : Profile} (h : p.ok c = true) :
    1 ≤ p.pageSize + p.oobSize ∧ p.pageSize + p.oobSize ≤ 32767 ∧ 1 ≤ p.pagesPerBlock ∧ 1 ≤ p.blockCount ∧
      p.blockCount * p.pagesPerBlock < 2 ^ (8 * c.rowCycles) ∧ p.blockCount * p.pagesPerBlock < 2 ^ 32 ∧
      p.pagesPerBlock ≤ 65535 ∧ 1 + 2 * (p.pageSize + p.oobSize) ≤ c.maxPayload := by
  rw [Nat.pow_mul]
  exact Profile.ok_bounds h

/-- Settles O51: were the configuration accepted, it would meet the bound that is broken. -/
theorem badConfigurationIsRefused : Obligations.BadConfigurationIsRefused := by
  rintro s _ rfl hbad
  refine step_of_not_ok fun hok => ?_
  have hparams := Config.ok_bounds hok
  rcases hbad with h | h | h | h | h | h | h | h | ⟨p, hp, hbad⟩
  iterate 8
    · omega
  · have hprofile := Profile.ok_bounds_of_sizes (Config.profile_ok hok hp)
    generalize 2 ^ (8 * s.cfg.rowCycles) = rowLimit at hprofile hbad
    omega

end Sys2Proof.Machine
end

section
/-! SUPPORT. The machine as a whole (spec/10_state.md): what the handling of one command, unit or event can do to the registers
that `Inv` speaks of is said once, as `Handling`. From it every step keeps `Inv`, and `TX` only grows. That no step from a
sound state faults rests on the guards of R27 alone. -/

namespace Sys2Proof.Machine

/-! ## What a handling keeps -/

/-- What every step but a power-on keeps: the parameters stay, `TX` only grows, the supply does not fail by itself, the array
stays in canonical form. -/
structure Moves (s t : State) : Prop where
  cfg : t.cfg = s.cfg
  tx : s.tx <+: t.tx
  power : s.env.power = .on → t.env.power = .on
  arr : Memory.wf s.die.arr = true → Memory.wf t.die.arr = true

/-- `Moves`, and the decoder and `PROFILE` stay. -/
structure Kept (s t : State) : Prop extends Moves s t where
  dec : t.dec = s.dec
  profile : t.ses.profile = s.ses.profile

/-- The registers that say where an operation stands are the same: kind, options, range, units done, cursor. -/
def SamePlace (o o' : OpRegs) : Prop :=
  o' = { o with cause := o'.cause, bytesDone := o'.bytesDone, lastHash := o'.lastHash, frameErrCnt := o'.frameErrCnt }

/-- `Kept`, and the sequencer stands where it stood. -/
structure Quiet (s t : State) : Prop extends Kept s t where
  seq : t.seq = s.seq
  op : SamePlace s.op t.op

theorem SamePlace.trans {o o' o'' : OpRegs} (h : SamePlace o o') (k : SamePlace o' o'') : SamePlace o o'' := by
  unfold SamePlace at *
  rw [k, h]

/-- An update of none of the fields `Moves` speaks of. -/
theorem moves_of_eq {s t : State} (hcfg : t.cfg = s.cfg := by rfl) (htx : t.tx = s.tx := by rfl)
    (hpower : t.env.power = s.env.power := by rfl) (harr : t.die.arr = s.die.arr := by rfl) : Moves s t :=
  ⟨hcfg, ⟨[], by rw [htx, List.append_nil]⟩, fun h => hpower.trans h, fun h => harr ▸ h⟩

theorem Moves.trans {s t u : State} (h : Moves s t) (k : Moves t u) : Moves s u :=
  ⟨k.cfg.trans h.cfg, h.tx.trans k.tx, k.power ∘ h.power, k.arr ∘ h.arr⟩

theorem Kept.trans {s t u : State} (h : Kept s t) (k : Kept t u) : Kept s u :=
  ⟨h.toMoves.trans k.toMoves, k.dec.trans h.dec, k.profile.trans h.profile⟩

theorem Quiet.refl (s : State) : Quiet s s := ⟨⟨moves_of_eq, rfl, rfl⟩, rfl, rfl⟩

theorem Quiet.trans {s t u : State} (h : Quiet s t) (k : Quiet t u) : Quiet s u :=
  ⟨h.toKept.trans k.toKept, k.seq.trans h.seq, h.op.trans k.op⟩

/-- An update of none of the fields `Quiet` speaks of. -/
theorem quiet_of_eq {s t : State} (hcfg : t.cfg = s.cfg := by rfl) (htx : t.tx = s.tx := by rfl)
    (hpower : t.env.power = s.env.power := by rfl) (harr : t.die.arr = s.die.arr := by rfl) (hdec : t.dec = s.dec := by rfl)
    (hprofile : t.ses.profile = s.ses.profile := by rfl) (hseq : t.seq = s.seq := by rfl)
    (hop : SamePlace s.op t.op := by rfl) : Quiet s t :=
  ⟨⟨moves_of_eq hcfg htx hpower harr, hdec, hprofile⟩, hseq, hop⟩

/-! ## The bus side -/

/-- A bus operation is quiet when it keeps the supply and the canonical form. -/
theorem BusOnly.quiet {s t : State} (h : BusOnly s t) (hp : s.env.power = .on → t.env.power = .on)
    (ha : Memory.wf s.die.arr = true → Memory.wf t.die.arr = true) : Quiet s t := by
  have hr := h.registers
  exact ⟨⟨⟨by rw [hr], by rw [hr], hp, ha⟩, by rw [hr], by rw [hr]⟩, by rw [hr], by rw [hr]; rfl⟩

/-- A bus operation that moves neither the array nor the supply is quiet. -/
theorem BusOnly.quiet_of_eq {s t : State} (h : BusOnly s t) (hp : t.env.power = s.env.power) (ha : t.die.arr = s.die.arr) :
    Quiet s t :=
  h.quiet (fun e => hp.trans e) (fun e => ha ▸ e)

theorem quiet_draw (s : State) : Quiet s (draw s).2 := (busOnly_draw s).quiet_of_eq (by simp) (by simp)

theorem quiet_drawBytes (n : Nat) (s : State) : Quiet s (drawBytes n s).2 :=
  (busOnly_drawBytes n s).quiet_of_eq (by simp) (by simp)

theorem quiet_setArr {s : State} {m : Memory} (h : Memory.wf s.die.arr = true → Memory.wf m = true) : Quiet s (s.setArr m) :=
  (busOnly_setArr s m).quiet id h

theorem quiet_strayChange (s : State) : Quiet s (strayChange s) :=
  (busOnly_strayChange s).quiet id (writeCells_wf _ _)

theorem quiet_tearRows (n row u : Nat) (s : State) : Quiet s (tearRows row n u s) := by
  induction n generalizing row s with
  | zero => exact Quiet.refl s
  | succ n ih => exact ((quiet_drawBytes u s).trans (quiet_setArr (writeRun_wf _ _ _))).trans (ih _ _)

/-- Once the supply is failing, how far it has failed is no matter of `Quiet`. -/
theorem quiet_power {s : State} (q : Supply) (h : s.env.power ≠ .on) : Quiet s { s with env := { s.env with power := q } } :=
  (busOnly_power s q).quiet (fun e => absurd e h) id

theorem quiet_arrayEffect {done torn : State → State} (hd : ∀ s, Quiet s (done s)) (ht : ∀ s, Quiet s (torn s)) (s : State) :
    Quiet s (arrayEffect done torn s) := by
  unfold arrayEffect
  split
  · exact hd s
  · next h => exact (quiet_power _ (by simp [h])).trans (hd _)
  · next h => exact (quiet_power _ (by simp [h])).trans (ht _)
  · next h => exact quiet_power _ (by simp [h])
  · exact Quiet.refl s

theorem quiet_recordEffect {f : State → State} (hf : ∀ s, Quiet s (f s)) (s : State) : Quiet s (recordEffect f s) := by
  unfold recordEffect
  split
  · exact hf s
  · next h => exact (quiet_power _ (by simp [h])).trans (hf _)
  · next h => exact quiet_power _ (by simp [h])
  · exact Quiet.refl s

theorem quiet_strayEffect (s : State) : Quiet s (arrayEffect strayChange strayChange s) :=
  quiet_arrayEffect quiet_strayChange quiet_strayChange s

theorem quiet_dieProgram (l : Latch) (passed : Bool) (s : State) : Quiet s (dieProgram l passed s) := by
  unfold dieProgram
  split
  · split
    · refine quiet_arrayEffect (fun t => ?_) (quiet_tearRows _ _ _) s
      split
      · exact quiet_setArr (programRow_wf _ _ _)
      · exact quiet_tearRows _ _ _ t
    · exact quiet_strayEffect s
  all_goals exact quiet_strayEffect s

theorem quiet_dieErase (l : Latch) (passed : Bool) (s : State) : Quiet s (dieErase l passed s) := by
  unfold dieErase
  split
  · split
    · refine quiet_arrayEffect (fun t => ?_) (quiet_tearRows _ _ _) s
      split
      · exact quiet_setArr (eraseRows_wf _ _ _ _)
      · exact quiet_tearRows _ _ _ t
    · exact quiet_strayEffect s
  all_goals exact quiet_strayEffect s

theorem quiet_dieRead (l : Latch) (n : Nat) (s : State) : Quiet s (dieRead l n s).2 := by
  unfold dieRead
  split
  · split
    · exact Quiet.refl s
    · exact quiet_drawBytes n s
  all_goals exact quiet_drawBytes n s

theorem quiet_cycles (cs : List BusCycle) (s : State) : Quiet s (cycles cs s) := (busOnly_cycles cs s).quiet id id

theorem quiet_setLatch (s : State) (l : Latch) : Quiet s (s.setLatch l) := (busOnly_setLatch s l).quiet id id

theorem quiet_waitReady (t : Nat) (s : State) : Quiet s (waitReady t s).2 := (quiet_draw s).trans (quiet_cycles _ _)

theorem quiet_busReadSetup (addr : List Byte) (s : State) : Quiet s (busReadSetup addr s) :=
  (busOnly_busReadSetup addr s).quiet id id

theorem quiet_busProgSetup (addr bs : List Byte) (s : State) : Quiet s (busProgSetup addr bs s) :=
  (busOnly_busProgSetup addr bs s).quiet id id

theorem quiet_busEraseSetup (addr : List Byte) (s : State) : Quiet s (busEraseSetup addr s) :=
  (busOnly_busEraseSetup addr s).quiet id id

theorem quiet_busReadConfirm (n : Nat) (s : State) : Quiet s (busReadConfirm n s).2 := by
  have hw := ((quiet_cycles _ s).trans (quiet_waitReady s.cfg.readyTimeoutRead (sendCommand s.cfg.opReadConfirm s))).trans
    (quiet_setLatch _ .idle)
  unfold busReadConfirm
  dsimp only
  split
  · exact (hw.trans (quiet_dieRead _ _ _)).trans (quiet_cycles _ _)
  · exact hw

theorem quiet_confirmed (op : Byte) (t : Nat) (s : State) : Quiet s (confirmed op t s) :=
  (busOnly_confirmed op t s).quiet_of_eq (by simp [confirmed]) rfl

theorem quiet_busProgConfirm (s : State) : Quiet s (busProgConfirm s).2 := by
  rw [busProgConfirm_eq]
  exact (quiet_confirmed _ _ s).trans (quiet_dieProgram _ _ _)

theorem quiet_busEraseConfirm (s : State) : Quiet s (busEraseConfirm s).2 := by
  rw [busEraseConfirm_eq]
  exact (quiet_confirmed _ _ s).trans (quiet_dieErase _ _ _)

theorem quiet_busReadStatus (s : State) : Quiet s (busReadStatus s).2 := (busOnly_busReadStatus s).quiet id id

theorem quiet_idCycles (bs : List Byte) (s : State) : Quiet s (idCycles bs s) := (busOnly_idCycles bs s).quiet id id

theorem quiet_busReadId (s : State) : Quiet s (busReadId s).2 := (quiet_drawBytes _ s).trans (quiet_idCycles _ _)

theorem quiet_busReset (s : State) : Quiet s (busReset s).2 :=
  ((quiet_cycles _ s).trans (quiet_waitReady _ _)).trans (quiet_setLatch _ _)

theorem quiet_memRead (row n : Nat) (s : State) : Quiet s (memRead row n s).2 := by
  have h := (quiet_busReadSetup (addrBytes s.cfg 0 row) s).trans (quiet_busReadConfirm n _)
  unfold memRead
  dsimp only
  split <;> exact h

theorem quiet_checkStatus (ready : Bool) (s : State) : Quiet s (checkStatus ready s).2 := by
  unfold checkStatus
  split
  · exact quiet_busReadStatus s
  · exact Quiet.refl s

theorem quiet_memWrite (row : Nat) (bs : List Byte) (s : State) : Quiet s (memWrite row bs s).2 :=
  ((quiet_busProgSetup _ _ s).trans (quiet_busProgConfirm _)).trans (quiet_checkStatus _ _)

theorem quiet_memErase (p : Profile) (block : Nat) (s : State) : Quiet s (memErase p block s).2 :=
  ((quiet_busEraseSetup _ s).trans (quiet_busEraseConfirm _)).trans (quiet_checkStatus _ _)

theorem quiet_readRetry (row n : Nat) (s : State) : Quiet s (readRetry row n s).2 :=
  withBusRetry_keeps (R := Quiet) Quiet.trans (quiet_memRead row n) _ s

theorem quiet_writeRetry (row : Nat) (bs : List Byte) (s : State) : Quiet s (writeRetry row bs s).2 :=
  withBusRetry_keeps (R := Quiet) Quiet.trans (quiet_memWrite row bs) _ s

theorem quiet_eraseRetry (p : Profile) (block : Nat) (s : State) : Quiet s (eraseRetry p block s).2 :=
  withBusRetry_keeps (R := Quiet) Quiet.trans (quiet_memErase p block) _ s

theorem quiet_resetRetry (k : Nat) (s : State) : Quiet s (resetRetry k s).2 := by
  induction k generalizing s with
  | zero => exact quiet_busReset s
  | succ k ih =>
    unfold resetRetry
    split
    · exact quiet_busReset s
    · exact (quiet_busReset s).trans (ih _)

theorem quiet_setTiming (t : Timing) (s : State) : Quiet s (setTiming t s) := quiet_of_eq

theorem quiet_trialReadId (s : State) : Quiet s (trialReadId s).2 := (quiet_drawBytes _ s).trans (quiet_idCycles _ _)

theorem quiet_autotuneLoop (ref : List Byte) (cs : List Timing) (best : Timing) (s : State) :
    Quiet s (autotuneLoop ref cs best s) := by
  induction cs generalizing best s with
  | nil => exact quiet_setTiming best s
  | cons c cs ih =>
    have htrial := (quiet_setTiming c s).trans (quiet_trialReadId _)
    simp only [autotuneLoop]
    split
    · exact htrial.trans (ih _ _)
    · exact htrial.trans (quiet_setTiming _ _)

theorem quiet_autotune (s : State) : Quiet s (autotune s) :=
  ((quiet_setTiming _ s).trans (quiet_busReadId _)).trans (quiet_autotuneLoop _ _ _ _)

/-! ## Frames, the checkpoint record, the counters -/

theorem quiet_emit (i : Instr) (s : State) : Quiet s (emit i s) :=
  ⟨⟨⟨rfl, ⟨_, rfl⟩, id, id⟩, rfl, rfl⟩, rfl, rfl⟩

theorem quiet_reject (cause : Cause) (ctx : Byte) (s : State) : Quiet s (reject cause ctx s) := quiet_emit _ s

theorem quiet_emitProgress (s : State) : Quiet s (emitProgress s) := quiet_emit _ s

theorem quiet_emitComplete (s : State) : Quiet s (emitComplete s) := quiet_emit _ s

theorem quiet_rejectNoChip (ctx : Byte) (s : State) : Quiet s (rejectNoChip ctx s) := by
  rw [rejectNoChip_eq, List.append_assoc]
  exact ⟨⟨⟨rfl, ⟨_, rfl⟩, id, id⟩, rfl, rfl⟩, rfl, rfl⟩

theorem quiet_save (kind : Byte) (block : U32) (page : U16) (hash token : U32) (s : State) :
    Quiet s (save kind block page hash token s) := by
  refine quiet_recordEffect (fun t => ?_) s
  exact quiet_of_eq

theorem quiet_clearCp (s : State) : Quiet s (clearCp s) := by
  refine quiet_recordEffect (fun t => ?_) s
  exact quiet_of_eq

theorem quiet_saveProgress (p : Profile) (s : State) : Quiet s (saveProgress p s) := quiet_save _ _ _ _ _ s

theorem quiet_updateChunk (p : Profile) (x : List Byte) (s : State) : Quiet s (updateChunk p x s) := quiet_of_eq

theorem quiet_bumpFrameErr (s : State) : Quiet s (bumpFrameErr s).2 := by
  rw [bumpFrameErr_frame]
  exact quiet_of_eq

/-! ## The end of an operation -/

theorem kept_seq_op (q : Seq) (o : OpRegs) (s : State) : Kept s { s with seq := q, op := o } :=
  ⟨moves_of_eq, rfl, rfl⟩

theorem kept_endWith (q : Seq) (cause : Cause) (s : State) : Kept s (endWith q cause s) :=
  (kept_seq_op q _ s).trans (quiet_emit _ _).toKept

theorem kept_completeOp (s : State) : Kept s (completeOp s) :=
  (kept_seq_op .completed s.op s).trans (quiet_clearCp _).toKept

/-! ## The end of a unit (R283) -/

/-- From `s` to `t` one unit was counted (R283, R25): the cursor is advanced, `SEQ` is `Completed` after the last unit. -/
structure Counted (p : Profile) (s t : State) : Prop extends Kept s t where
  seq : t.seq = seqAfterUnit s.seq s.op
  op : SamePlace (countedOp s.cfg p s.op) t.op

theorem SamePlace.countedOp {o o' : OpRegs} (c : Config) (p : Profile) (h : SamePlace o o') :
    SamePlace (countedOp c p o) (countedOp c p o') := by
  unfold SamePlace at h
  rw [h]
  rfl

/-- Quiet work before the count does not show in it. -/
theorem Counted.of_quiet {p : Profile} {s t u : State} (h : Quiet s t) (k : Counted p t u) : Counted p s u := by
  refine ⟨h.toKept.trans k.toKept, k.seq.trans ?_, (h.op.countedOp s.cfg p).trans ?_⟩
  · rw [seqAfterUnit, seqAfterUnit, h.seq, h.op]
  · rw [← h.cfg]
    exact k.op

theorem counted_finishUnit (p : Profile) (s : State) : Counted p s (finishUnit p s) := by
  have hdone : (countedOp s.cfg p s.op).opDone = s.op.opDone + 1 := rfl
  have htotal : (countedOp s.cfg p s.op).opTotal = s.op.opTotal := rfl
  unfold finishUnit
  simp only [advanceCursor_eq, hdone, htotal]
  by_cases hlast : s.op.opDone + 1 = s.op.opTotal
  · rw [if_pos hlast]
    have hend := ((quiet_clearCp { s with seq := .completed, op := countedOp s.cfg p s.op }).trans
      (quiet_emitProgress _)).trans (quiet_emitComplete _)
    exact ⟨(kept_seq_op _ _ s).trans hend.toKept, hend.seq.trans (if_pos hlast).symm, hend.op⟩
  · rw [if_neg hlast]
    have hseq : s.seq = seqAfterUnit s.seq s.op := (if_neg hlast).symm
    split
    · have hend := (quiet_saveProgress p { s with op := countedOp s.cfg p s.op }).trans (quiet_emitProgress _)
      exact ⟨(kept_seq_op _ _ s).trans hend.toKept, hend.seq.trans hseq, hend.op⟩
    · have hend := quiet_emitProgress { s with op := countedOp s.cfg p s.op }
      exact ⟨(kept_seq_op _ _ s).trans hend.toKept, hend.seq.trans hseq, hend.op⟩

theorem counted_finishWrite (p : Profile) (x : List Byte) (s : State) : Counted p s (finishWrite p x s) := by
  have hclear : Quiet (updateChunk p x s)
      { updateChunk p x s with op := { (updateChunk p x s).op with frameErrCnt := 0 } } := quiet_of_eq
  exact .of_quiet ((quiet_updateChunk p x s).trans hclear) (counted_finishUnit p _)

/-! ## The attempts of a unit (R285, R286) -/

theorem quiet_writeOne (p : Profile) (row : Nat) (x : List Byte) (k : Nat) (s : State) : Quiet s (writeOne p row x k s).2 := by
  have hverify : ∀ t, Quiet t (readRetry row p.unitSize (writeRetry row x t).2).2 :=
    fun t => (quiet_writeRetry row x t).trans (quiet_readRetry _ _ _)
  fun_induction writeOne p row x k s with
  | case1 | case2 | case3 => exact quiet_writeRetry row x _
  | case4 | case5 | case7 | case8 => exact hverify _
  | case6 =>
    rename_i ih
    exact (hverify _).trans ih

theorem quiet_blankCheck (u row n : Nat) (s : State) : Quiet s (blankCheck u row n s).2 := by
  fun_induction blankCheck u row n s with
  | case1 => exact Quiet.refl _
  | case2 =>
    rename_i ih
    exact (quiet_readRetry _ _ _).trans ih
  | case3 | case4 | case5 => exact quiet_readRetry _ _ _

theorem quiet_eraseOne (p : Profile) (block k : Nat) (s : State) : Quiet s (eraseOne p block k s).2 := by
  have hverify : ∀ t, Quiet t
      (blankCheck p.unitSize (block * p.pagesPerBlock) p.pagesPerBlock (eraseRetry p block t).2).2 :=
    fun t => (quiet_eraseRetry p block t).trans (quiet_blankCheck _ _ _ _)
  fun_induction eraseOne p block k s with
  | case1 | case2 | case3 => exact quiet_eraseRetry p block _
  | case4 | case5 | case6 => exact hverify _
  | case7 =>
    rename_i ih
    exact (hverify _).trans ih

/-! ## The start of an operation (R255, R279) -/

/-- The operation registers stand `done0` units into the range of an accepted request (R279). -/
structure StartedAt (c : Config) (p : Profile) (kind : Byte) (start total done0 : Nat) (o : OpRegs) : Prop where
  opKind : o.opKind = kind
  opStart : o.opStart = BitVec.ofNat 32 start
  opTotal : o.opTotal = BitVec.ofNat 32 total
  opDone : o.opDone = BitVec.ofNat 32 done0
  curBlock : o.curBlock = BitVec.ofNat 32 (if kind = c.commands.erase then start + done0 else (start + done0) / p.pagesPerBlock)
  curPage : o.curPage = BitVec.ofNat 16 (if kind = c.commands.erase then 0 else (start + done0) % p.pagesPerBlock)

theorem StartedAt.of_samePlace {c : Config} {p : Profile} {kind : Byte} {start total done0 : Nat} {o o' : OpRegs}
    (h : StartedAt c p kind start total done0 o) (k : SamePlace o o') : StartedAt c p kind start total done0 o' := by
  rw [k]
  exact ⟨h.opKind, h.opStart, h.opTotal, h.opDone, h.curBlock, h.curPage⟩

theorem startedAt_beginOp (p : Profile) (kind : Byte) (r : Request) (start total : Nat) (s : State) :
    StartedAt s.cfg p kind start total 0 (beginOp p kind r start total s).op := by
  rw [beginOp_eq]
  exact ⟨rfl, rfl, rfl, rfl, rfl, rfl⟩

theorem startedAt_takeOver {p : Profile} {kind : Byte} {start total : Nat} {s : State} (done0 : Nat)
    (h : StartedAt s.cfg p kind start total 0 s.op) :
    StartedAt s.cfg p kind start total done0 (takeOver p start done0 s).op := by
  obtain ⟨hkind, hstart, htotal, -, -, -⟩ := h
  by_cases hk : kind = s.cfg.commands.erase
  · constructor <;> simp [takeOver, setCursor, hkind, hstart, htotal, hk]
  · constructor <;> simp [takeOver, setCursor, hkind, hstart, htotal, hk]

/-- The resume decision works on the die and the record only. A fresh start has nothing done, and a resume, `info = 1`, no
more than the range holds. -/
theorem resumeDecision_spec (p : Profile) (kind : Byte) (start total : Nat) (s : State) :
    Quiet s (resumeDecision p kind start total s).2 ∧
      ∀ info done0, (resumeDecision p kind start total s).1 = .start info done0 →
        done0 ≤ total ∧ (info ≠ 1 → done0 = 0) := by
  have hread := quiet_readRetry (cpRow p s.cp) p.unitSize s
  unfold resumeDecision
  split
  · exact ⟨Quiet.refl s, by simp⟩
  · split
    · exact ⟨quiet_clearCp s, by simp⟩
    · next hvalid hstale =>
      have hdone : cpDone s.cfg p s.cp kind start ≤ total := by
        refine (cpDone_eq ?_).2
        simp only [not_or, Bool.not_eq_false] at hstale
        exact hstale.2.2
      split
      · dsimp only
        split
        · split
          · refine ⟨hread, fun info done0 h => ?_⟩
            cases h
            exact ⟨hdone, fun h => absurd rfl h⟩
          · exact ⟨hread.trans (quiet_clearCp _), by simp⟩
        · exact ⟨hread, by simp⟩
        · exact ⟨hread, by simp⟩
      · refine ⟨Quiet.refl s, fun info done0 h => ?_⟩
        cases h
        exact ⟨hdone, fun h => absurd rfl h⟩

/-- The answer of an accepted request: `SEQ` is `Completed` where nothing is left to do, and stands else. -/
theorem announce_cases (info : Byte) (s : State) :
    Kept s (announce info s) ∧ (announce info s).seq = .completed ∨
      s.op.opDone ≠ s.op.opTotal ∧ Quiet s (announce info s) := by
  have hack := (quiet_emit (.rspAck s.op.opKind info) s).trans (quiet_emitProgress _)
  unfold announce
  dsimp only
  split
  · exact .inl ⟨(hack.toKept.trans (kept_completeOp _)).trans (quiet_emitComplete _).toKept, (quiet_clearCp _).seq⟩
  · next hne => exact .inr ⟨hne, hack⟩

/-- An accepted request (R279): the operation is over at once, or stands inside its range with units left. -/
theorem runOp_cases (p : Profile) (kind : Byte) (r : Request) (start total : Nat) (s : State) :
    Kept s (runOp p kind r start total s) ∧
      (active (runOp p kind r start total s).seq = false ∨
        ∃ done0, done0 < total ∧ StartedAt s.cfg p kind start total done0 (runOp p kind r start total s).op) := by
  obtain ⟨hquiet, hstart⟩ := resumeDecision_spec p kind start total (beginOp p kind r start total s)
  have hbegin : Kept s (beginOp p kind r start total s) := kept_seq_op _ _ s
  have hfresh := (startedAt_beginOp p kind r start total s).of_samePlace hquiet.op
  unfold runOp
  dsimp only
  generalize resumeDecision p kind start total (beginOp p kind r start total s) = d at *
  have hkept := hbegin.trans hquiet.toKept
  split
  · exact ⟨hkept.trans (kept_endWith _ _ _), .inl rfl⟩
  · next info done0 hd =>
    obtain ⟨hle, hzero⟩ := hstart info done0 hd
    rw [← hkept.cfg] at hfresh ⊢
    have hplaced : Kept d.2 (if info = 1 then takeOver p start done0 d.2 else d.2) ∧
        StartedAt d.2.cfg p kind start total done0 (if info = 1 then takeOver p start done0 d.2 else d.2).op := by
      split
      · exact ⟨kept_seq_op _ _ _, startedAt_takeOver done0 hfresh⟩
      · next h => exact ⟨(Quiet.refl _).toKept, hzero h ▸ hfresh⟩
    generalize (if info = 1 then takeOver p start done0 d.2 else d.2) = u at hplaced ⊢
    obtain ⟨hu, hat⟩ := hplaced
    rcases announce_cases info u with ⟨hann, hseq⟩ | ⟨hne, hann⟩
    · exact ⟨(hkept.trans hu).trans hann, .inl (by rw [hseq]; rfl)⟩
    · refine ⟨(hkept.trans hu).trans hann.toKept, .inr ⟨done0, lt_of_le_of_ne hle ?_, hat.of_samePlace hann.op⟩⟩
      rintro rfl
      exact hne (hat.opDone.trans hat.opTotal.symm)

/-! ## What one handling can do -/

/-- Everything that the handling of one command, one unit or one event of the environment can do to the registers `Inv`
speaks of. -/
inductive Handling (s t : State) : Prop where
  /-- A refusal, a report, work on the bus or on the record. -/
  | quiet (h : Quiet s t)
  /-- A running or paused operation is paused or goes on (R288, R289). -/
  | toggled (hactive : active s.seq = true) (h : Kept s t) (hop : t.op = s.op)
  /-- A unit of the active operation is done (R283). -/
  | counted (p : Profile) (hheld : heldProfile s = some p) (hactive : active s.seq = true) (h : Counted p s t)
  /-- An accepted request stands inside its range (R279). -/
  | started (p : Profile) (kind : Byte) (r : Request) (start total done0 : Nat) (hheld : heldProfile s = some p)
      (hkind : kind = s.cfg.commands.read ∨ kind = s.cfg.commands.write ∨ kind = s.cfg.commands.erase)
      (hvalid : validate s.cfg p kind r = some (start, total)) (hleft : done0 < total) (h : Kept s t)
      (hop : StartedAt s.cfg p kind start total done0 t.op)
  /-- No operation is active afterwards: it ended, or the profile was chosen anew, or a session began. -/
  | stopped (h : Moves s t) (hseq : active t.seq = false) (hdec : t.dec = s.dec ∨ t.dec.rxState = .hunt0)
      (hprofile : t.ses.profile = s.ses.profile ∨ t.ses.profile = 0xFF ∨
        ∃ i, i < s.cfg.profileTable.length ∧ t.ses.profile = BitVec.ofNat 8 i)

theorem Handling.moves {s t : State} (h : Handling s t) : Moves s t := by
  cases h with
  | quiet h => exact h.toMoves
  | toggled _ h _ => exact h.toMoves
  | counted _ _ _ h => exact h.toMoves
  | started _ _ _ _ _ _ _ _ _ _ h _ => exact h.toMoves
  | stopped h _ _ _ => exact h

theorem Handling.ended {s t : State} (h : Kept s t) (hseq : active t.seq = false) : Handling s t :=
  .stopped h.toMoves hseq (.inl h.dec) (.inl h.profile)

/-- Quiet work, then the end of the operation with a failure frame (R372). -/
theorem Handling.fail {s u : State} (cause : Cause) (h : Quiet s u) : Handling s (fail cause u) :=
  .ended (h.toKept.trans (kept_endWith _ _ _)) rfl

/-! ## Units -/

theorem handling_readUnit {p : Profile} {s : State} (hheld : heldProfile s = some p) (hactive : active s.seq = true) :
    Handling s (readUnit p s) := by
  have hread := quiet_readRetry (cursorRow p s) p.unitSize s
  unfold readUnit
  dsimp only
  split
  · exact .counted p hheld hactive
      (.of_quiet ((hread.trans (quiet_updateChunk p _ _)).trans (quiet_emit _ _)) (counted_finishUnit p _))
  · exact .fail _ hread
  · exact .fail _ hread

theorem handling_writeUnit {p : Profile} {s : State} (x : List Byte) (hheld : heldProfile s = some p)
    (hactive : active s.seq = true) : Handling s (writeUnit p x s) := by
  have hwrite := quiet_writeOne p (cursorRow p s) x s.cfg.verifyRetryMax s
  unfold writeUnit
  dsimp only
  split
  · exact .counted p hheld hactive (counted_finishWrite p x s)
  · split
    · exact .fail _ hwrite
    · exact .counted p hheld hactive (.of_quiet hwrite (counted_finishWrite p x _))

theorem handling_eraseUnit {p : Profile} {s : State} (hheld : heldProfile s = some p) (hactive : active s.seq = true) :
    Handling s (eraseUnit p s) := by
  have herase := quiet_eraseOne p s.op.curBlock.toNat s.cfg.verifyRetryMax s
  unfold eraseUnit
  dsimp only
  split
  · exact .fail _ herase
  · exact .counted p hheld hactive (.of_quiet herase (counted_finishUnit p _))

/-! ## Handlers -/

theorem withProfile_next {s t : State} {f : Profile → Host.Outcome State Fault Refusal} (h : withProfile s f = .next t) :
    ∃ p, heldProfile s = some p ∧ f p = .next t := by
  unfold withProfile at h
  split at h
  · next p hp => exact ⟨p, hp, h⟩
  · cases h

/-- A command is handled where R332 accepts it, and refused, which is quiet, elsewhere. -/
theorem handling_accepted {k : Cmd} {s t : State} {handler : Host.Outcome State Fault Refusal}
    (hrun : accept s.cfg k s.seq s.op.opKind = .accept → handler = .next t → Handling s t)
    (h : accepted k s handler = .next t) : Handling s t := by
  unfold accepted at h
  split at h
  · next ha => exact hrun ha h
  · cases h
    exact .quiet (quiet_reject _ _ s)

theorem handling_onData {payload : List Byte} {s t : State} (hactive : active s.seq = true)
    (h : onData payload s = .next t) : Handling s t := by
  obtain ⟨p, hheld, h⟩ := withProfile_next h
  split at h
  · cases h
    exact .quiet (quiet_reject _ _ s)
  · cases h
    exact handling_writeUnit _ hheld hactive

theorem handling_startOp {kind : Byte} {r : Request} {s t : State}
    (hkind : kind = s.cfg.commands.read ∨ kind = s.cfg.commands.write ∨ kind = s.cfg.commands.erase)
    (h : startOp kind r s = .next t) : Handling s t := by
  unfold startOp at h
  split at h
  · cases h
    exact .quiet (quiet_reject _ _ s)
  · obtain ⟨p, hheld, h⟩ := withProfile_next h
    split at h
    · cases h
      exact .quiet (quiet_reject _ _ s)
    · next start total hvalid =>
      cases h
      obtain ⟨hkept, hend | ⟨done0, hleft, hat⟩⟩ := runOp_cases p kind r start total s
      · exact .ended hkept hend
      · exact .started p kind r start total done0 hheld hkind hvalid hleft hkept hat

theorem handling_onPause {s t : State} (hactive : active s.seq = true) (h : onPause s = .next t) : Handling s t := by
  have hpause := kept_seq_op .paused s.op s
  unfold onPause at h
  split at h
  · cases h
    exact .toggled hactive (hpause.trans (quiet_emit _ _).toKept) rfl
  · obtain ⟨p, -, h⟩ := withProfile_next h
    cases h
    refine .toggled hactive ((hpause.trans (quiet_saveProgress p _).toKept).trans (quiet_emit _ _).toKept) ?_
    rw [emit_op, saveProgress, (save_frame _ _ _ _ _ _).1]

theorem handling_onSetResume (mode : Byte) (s : State) : Handling s (onSetResume mode s) := by
  have hmode : ∀ b, Quiet s { s with ses := { s.ses with resumeMode := b } } := fun _ => quiet_of_eq
  unfold onSetResume
  split
  · exact .quiet (quiet_reject _ _ s)
  · split
    · exact .quiet (((hmode false).trans (quiet_clearCp _)).trans (quiet_emit _ _))
    · exact .quiet ((hmode true).trans (quiet_emit _ _))

theorem quiet_powerCheck (s : State) : Quiet s (powerCheck s) := by
  unfold powerCheck
  refine (quiet_draw s).trans (Quiet.trans ?_ (quiet_emit _ _))
  exact quiet_of_eq

/-- Another value in `PROFILE`. -/
theorem moves_setProfile (b : Byte) (s : State) : Moves s { s with ses := { s.ses with profile := b } } :=
  moves_of_eq

theorem handling_onSelect {index : Byte} {s : State} (hidle : active s.seq = false) : Handling s (onSelect index s) := by
  unfold onSelect
  split
  · exact .quiet (quiet_rejectNoChip _ s)
  · next p hp =>
    have hlt : index.toNat < s.cfg.profileTable.length := (List.getElem?_eq_some_iff.1 hp).1
    exact .stopped ((moves_setProfile index s).trans (quiet_emit _ _).toMoves) hidle (.inl rfl)
      (.inr (.inr ⟨_, hlt, by simp⟩))

theorem detect_lt {c : Config} {idb : List Byte} {i : Nat} (h : detect c idb = some i) : i < c.profileTable.length := by
  unfold detect at h
  split at h
  · cases h
  · exact (List.findIdx?_eq_some_iff_getElem.1 h).1

theorem handling_onRedetect {s : State} (hidle : active s.seq = false) : Handling s (onRedetect s) := by
  have hreset := quiet_resetRetry s.cfg.busRetryMax { s with ses := { s.ses with profile := 0xFF } }
  have hnone : ∀ {u}, Quiet { s with ses := { s.ses with profile := 0xFF } } u → Handling s u := fun h =>
    .stopped ((moves_setProfile 0xFF s).trans h.toMoves) (by rw [h.seq]; exact hidle) (.inl h.dec) (.inr (.inl h.profile))
  unfold onRedetect
  dsimp only
  generalize resetRetry s.cfg.busRetryMax { s with ses := { s.ses with profile := 0xFF } } = r at hreset ⊢
  have hread := hreset.trans (quiet_busReadId r.2)
  split
  · exact hnone (hreset.trans (quiet_reject _ _ _))
  · split
    · exact hnone (hread.trans (quiet_rejectNoChip _ _))
    · next i hi =>
      have htune : Quiet { (busReadId r.2).2 with ses := { (busReadId r.2).2.ses with profile := BitVec.ofNat 8 i } }
          (if s.cfg.autotuneEn then
            autotune { (busReadId r.2).2 with ses := { (busReadId r.2).2.ses with profile := BitVec.ofNat 8 i } }
          else { (busReadId r.2).2 with ses := { (busReadId r.2).2.ses with profile := BitVec.ofNat 8 i } }) := by
        split
        · exact quiet_autotune _
        · exact Quiet.refl _
      have hend := htune.trans (quiet_emit
        (.rspModel (BitVec.ofNat 8 i) (((s.cfg.profileTable[i]?).map Profile.name).getD [])) _)
      exact .stopped (((moves_setProfile 0xFF s).trans hread.toMoves).trans ((moves_setProfile _ _).trans hend.toMoves))
        (by rw [hend.seq, hread.seq]; exact hidle) (.inl (hend.dec.trans hread.dec))
        (.inr (.inr ⟨i, detect_lt hi, hend.profile⟩))

theorem moves_sessionStart (s : State) : Moves s (sessionStart s) :=
  (quiet_draw s).toMoves.trans moves_of_eq

theorem handling_onExit (s : State) : Handling s (onExit s) := by
  have hcancel : Kept s (if active s.seq then cancelOp s else s) := by
    split
    · exact kept_endWith _ _ s
    · exact (Quiet.refl s).toKept
  unfold onExit
  exact .stopped ((hcancel.toMoves.trans (quiet_emit _ _).toMoves).trans (moves_sessionStart _)) rfl (.inr rfl)
    (.inr (.inl rfl))

/-! ## Instructions -/

/-- The ten responses and the nine bus opcodes complete, and are quiet. -/
theorem exec_quiet {i : Instr} (s : State) (h : i.space = .response ∨ i.space = .bus) :
    ∃ t, exec i s = .next t ∧ Quiet s t := by
  cases i with
  | rspAck | rspModel | rspProgress | rspComplete | rspFailed | rspPower | rspListStart | rspListEntry | rspListEnd | rspData =>
    exact ⟨_, rfl, quiet_emit _ s⟩
  | opReadSetup => exact ⟨_, rfl, quiet_busReadSetup _ s⟩
  | opReadConfirm => exact ⟨_, rfl, quiet_busReadConfirm _ s⟩
  | opProgSetup => exact ⟨_, rfl, quiet_busProgSetup _ _ s⟩
  | opProgConfirm => exact ⟨_, rfl, quiet_busProgConfirm s⟩
  | opEraseSetup => exact ⟨_, rfl, quiet_busEraseSetup _ s⟩
  | opEraseConfirm => exact ⟨_, rfl, quiet_busEraseConfirm s⟩
  | opReadStatus => exact ⟨_, rfl, quiet_busReadStatus s⟩
  | opReadId => exact ⟨_, rfl, quiet_busReadId s⟩
  | opReset => exact ⟨_, rfl, quiet_busReset s⟩
  | _ => simp [Instr.space] at h

/-- `DATA` and the three stream units are `on_data` of the payload they bring, behind the check of R332. -/
theorem exec_of_unitPayload {i : Instr} {payload : List Byte} (s : State) (h : unitPayload i = some payload) :
    exec i s = accepted .data s (onData payload s) := by
  cases i with
  | data | unitRaw | unitRle | unitBlank =>
    cases h
    rfl
  | _ => cases h

theorem active_of_accept_data {c : Config} {q : Seq} {kind : Byte} (h : accept c .data q kind = .accept) : active q = true := by
  obtain ⟨rfl, -⟩ : q = .running ∧ kind = c.commands.write := by simpa [accept] using h
  rfl

theorem running_of_accept_pause {c : Config} {q : Seq} {kind : Byte} (h : accept c .pause q kind = .accept) : q = .running := by
  simpa [accept] using h

theorem handling_unit {i : Instr} {payload : List Byte} {s t : State} (hi : unitPayload i = some payload)
    (h : exec i s = .next t) : Handling s t := by
  rw [exec_of_unitPayload s hi] at h
  exact handling_accepted (fun ha => handling_onData (active_of_accept_data ha)) h

theorem handling_execStatus {s t : State} (h : execStatus s = .next t) : Handling s t := by
  unfold execStatus at h
  refine handling_accepted (fun _ hrun => ?_) h
  split at hrun
  · cases hrun
    exact .quiet (quiet_emit _ s)
  · obtain ⟨p, -, hrun⟩ := withProfile_next hrun
    cases hrun
    exact .quiet (quiet_emit _ s)

/-- Executing an instruction, in every state. -/
theorem handling_exec {i : Instr} {s t : State} (h : exec i s = .next t) : Handling s t := by
  by_cases hside : i.space = .response ∨ i.space = .bus
  · obtain ⟨u, hu, hquiet⟩ := exec_quiet s hside
    cases hu.symm.trans h
    exact .quiet hquiet
  cases i with
  | status => exact handling_execStatus h
  | read => exact handling_accepted (fun _ => handling_startOp (.inl rfl)) h
  | write => exact handling_accepted (fun _ => handling_startOp (.inr (.inl rfl))) h
  | erase => exact handling_accepted (fun _ => handling_startOp (.inr (.inr rfl))) h
  | cancel =>
    refine handling_accepted (fun _ hrun => ?_) h
    cases hrun
    exact .ended (kept_endWith _ _ s) rfl
  | pause => exact handling_accepted (fun ha => handling_onPause (by rw [running_of_accept_pause ha]; rfl)) h
  | resumeOp =>
    refine handling_accepted (fun ha hrun => ?_) h
    cases hrun
    have hpaused : s.seq = .paused := by simpa [accept] using ha
    exact .toggled (by rw [hpaused]; rfl) ((kept_seq_op .running s.op s).trans (quiet_emit _ _).toKept) rfl
  | setResume mode =>
    refine handling_accepted (fun _ hrun => ?_) h
    cases hrun
    exact handling_onSetResume mode s
  | powerCheck =>
    refine handling_accepted (k := .powerCheck) (fun _ hrun => ?_) h
    cases hrun
    exact .quiet (quiet_powerCheck s)
  | select =>
    refine handling_accepted (fun ha hrun => ?_) h
    cases hrun
    exact handling_onSelect (by simpa [accept] using ha)
  | redetect =>
    refine handling_accepted (fun ha hrun => ?_) h
    cases hrun
    exact handling_onRedetect (by simpa [accept] using ha)
  | exit =>
    refine handling_accepted (k := .exit) (fun _ hrun => ?_) h
    cases hrun
    exact handling_onExit s
  | data | unitRaw | unitRle | unitBlank => exact handling_unit rfl h
  | _ => simp [Instr.space] at hside

/-! ## Frames and events -/

theorem handling_dispatchFrame {cmd : Byte} {payload : List Byte} {s t : State} (h : dispatchFrame cmd payload s = .next t) :
    Handling s t := by
  unfold dispatchFrame at h
  split at h
  · exact handling_exec h
  · cases h
    exact .quiet (quiet_reject _ _ s)
  · cases h
    exact .quiet (quiet_reject _ _ s)

theorem handling_onFrameError (cause : Cause) (s : State) : Handling s (onFrameError cause s) := by
  have hreject := quiet_reject cause 0x00 s
  have hcount := hreject.trans (quiet_bumpFrameErr _)
  unfold onFrameError
  dsimp only
  split
  · split
    · exact .fail _ hcount
    · exact .quiet hcount
  · exact .quiet hreject

theorem handling_serviceResult {r : RxResult} {s t : State} (h : serviceResult r s = .next t) : Handling s t := by
  cases r with
  | none =>
    cases h
    exact .quiet (Quiet.refl s)
  | frame => exact handling_dispatchFrame h
  | errChecksum | errLength =>
    cases h
    exact handling_onFrameError _ s

theorem handling_powerSample (mv : U16) (s : State) : Handling s (powerSample mv s) := by
  have hpwr : ∀ pwr, Quiet s { s with pwr := pwr } := fun _ => quiet_of_eq
  have hlow := (hpwr ⟨mv, true, saturatingSucc s.pwr.lowCount⟩).trans (quiet_emit (.rspPower mv true) _)
  unfold powerSample
  dsimp only
  split
  · split
    · exact .fail _ hlow
    · exact .quiet hlow
  · exact .quiet (hpwr _)

theorem handling_inactivityTimeout (s : State) : Handling s (inactivityTimeout s) := by
  have hhunt : Moves s { s with dec := { s.dec with rxState := .hunt0 } } := moves_of_eq
  unfold inactivityTimeout
  dsimp only
  split
  · have hend : Kept { s with dec := { s.dec with rxState := .hunt0 } }
        (if active s.seq then endWith .idle .hostTimeout { s with dec := { s.dec with rxState := .hunt0 } }
        else { s with dec := { s.dec with rxState := .hunt0 } }) := by
      split
      · exact kept_endWith _ _ _
      · exact (Quiet.refl _).toKept
    generalize (if active s.seq then endWith .idle .hostTimeout { s with dec := { s.dec with rxState := .hunt0 } }
        else { s with dec := { s.dec with rxState := .hunt0 } }) = u at hend ⊢
    exact .stopped (hhunt.trans (hend.trans (kept_seq_op .idle u.op u)).toMoves) rfl (.inr (by rw [hend.dec]))
      (.inl hend.profile)
  · exact .quiet (Quiet.refl s)

theorem handling_hostSend {bytes : List Byte} {s t : State} (h : hostSend bytes s = .next t) : Handling s t := by
  have hqueue : Quiet s { s with rxq := s.rxq ++ bytes } := quiet_of_eq
  unfold hostSend at h
  repeat' split at h
  all_goals cases h
  all_goals exact .quiet hqueue

theorem handling_issue {sp : Space} {bytes : List Byte} {s t : State} (h : issue sp bytes s = .next t) : Handling s t := by
  unfold issue at h
  split at h
  · exact handling_exec h
  · cases h

/-! ## The decoder (R146) -/

theorem unLe_slice_lt (l : List Byte) : unLe (slice l 1 5) < 2 ^ 32 := by
  have hlen : (slice l 1 5).length ≤ 4 := by simp [slice]
  calc unLe (slice l 1 5) < 256 ^ (slice l 1 5).length := unLe_lt _
    _ ≤ 256 ^ 4 := Nat.pow_le_pow_right (by decide) hlen
    _ = 2 ^ 32 := by decide

/-- The fourth `LEN` byte: a length beyond `MAX_PAYLOAD` sends the decoder hunting. -/
theorem decoderOk_rxLength (c : Config) (d : Decoder) {body : List Byte} (hbody : body.length = 5) :
    DecoderOk c (rxLength c d body).2 := by
  have hlt := unLe_slice_lt body
  have hto : (BitVec.ofNat 32 (unLe (slice body 1 5))).toNat = unLe (slice body 1 5) := by
    rw [BitVec.toNat_ofNat, Nat.mod_eq_of_lt hlt]
  unfold rxLength
  dsimp only
  split
  · trivial
  · by_cases hzero : unLe (slice body 1 5) = 0
    · simp [DecoderOk, hzero, hbody]
    · simp only [DecoderOk, hzero, if_false, hto]
      omega

theorem decoderOk_rxByte {c : Config} {d : Decoder} (b : Byte) (h : DecoderOk c d) : DecoderOk c (rxByte c d b).2 := by
  obtain ⟨st, body, len, ck⟩ := d
  cases st <;> simp only [DecoderOk] at h <;> simp only [rxByte]
  case hunt0 => split <;> trivial
  case hunt1 =>
    split
    · rfl
    · split <;> trivial
  case len3 => exact decoderOk_rxLength c _ (by simp [h])
  case payload =>
    by_cases hlast : body.length + 1 = 5 + len.toNat
    · simp only [DecoderOk, List.length_append, List.length_singleton, hlast, if_true]
      exact ⟨trivial, h.2.2⟩
    · simp only [DecoderOk, List.length_append, List.length_singleton, hlast, if_false]
      omega
  case ck0 | ck1 | ck2 => exact h
  case ck3 => trivial
  all_goals simp [DecoderOk, h]

/-! ## The registers stay sound -/

/-- `Inv` without what `Moves` keeps by itself, the supply and the array. -/
structure RegsOk (s : State) : Prop where
  config : s.cfg.ok = true
  commands : s.cfg.commandsDistinct = true
  profile : ProfileOk s
  operation : OperationOk s
  decoder : DecoderOk s.cfg s.dec

theorem inv_iff (s : State) : Inv s ↔ RegsOk s ∧ s.env.power = .on ∧ Memory.wf s.die.arr = true :=
  ⟨fun ⟨hc, hd, hpw, ha, hp, ho, hx⟩ => ⟨⟨hc, hd, hp, ho, hx⟩, hpw, ha⟩,
    fun ⟨⟨hc, hd, hp, ho, hx⟩, hpw, ha⟩ => ⟨hc, hd, hpw, ha, hp, ho, hx⟩⟩

theorem Kept.heldProfile_eq {s t : State} (h : Kept s t) : heldProfile t = heldProfile s := by
  rw [heldProfile, heldProfile, h.cfg, h.profile]

/-- Only the operation is to be looked at again after work that keeps the rest. -/
theorem RegsOk.of_kept {s t : State} (hs : RegsOk s) (h : Kept s t) (hop : OperationOk t) : RegsOk t :=
  ⟨h.cfg ▸ hs.config, h.cfg ▸ hs.commands, by rw [ProfileOk, h.profile, h.cfg]; exact hs.profile, hop,
    by rw [h.cfg, h.dec]; exact hs.decoder⟩

/-- An operation that stands where it stood is sound as it was. -/
theorem Kept.operationOk {s t : State} (h : Kept s t) (hop : SamePlace s.op t.op)
    (hactive : active t.seq = true → active s.seq = true) (hs : OperationOk s) : OperationOk t := by
  intro ha
  obtain ⟨p, hheld, hplace, hleft⟩ := hs (hactive ha)
  refine ⟨p, h.heldProfile_eq.trans hheld, ?_, ?_⟩
  · unfold PageOpOk EraseOpOk cursorRow
    rw [h.cfg, hop]
    exact hplace
  · rw [hop]
    exact hleft

/-! ## Counting a unit keeps the place (R21, R25) -/

/-- The next page: the row after this one. -/
theorem countedOp_page {c : Config} {p : Profile} {o : OpRegs} (hkind : o.opKind ≠ c.commands.erase)
    (hppb : p.pagesPerBlock ≤ 65535) (hpage : o.curPage.toNat < p.pagesPerBlock) (hblock : o.curBlock.toNat + 1 < 2 ^ 32) :
    (countedOp c p o).curBlock.toNat * p.pagesPerBlock + (countedOp c p o).curPage.toNat =
        o.curBlock.toNat * p.pagesPerBlock + o.curPage.toNat + 1 ∧
      (countedOp c p o).curPage.toNat < p.pagesPerBlock := by
  by_cases hlast : o.curPage.toNat + 1 = p.pagesPerBlock
  · have hnext : (o.curBlock + 1).toNat = o.curBlock.toNat + 1 := by bv_omega
    have hzero : (0 : U16).toNat = 0 := rfl
    simp only [countedOp, blockEnds, hkind, hlast, decide_true, Bool.or_true, if_true, if_false, hnext, hzero, Nat.succ_mul]
    omega
  · have hnext : (o.curPage + 1).toNat = o.curPage.toNat + 1 := by bv_omega
    simp only [countedOp, blockEnds, hkind, hlast, decide_false, Bool.or_false, if_false, Bool.false_eq_true, hnext]
    omega

/-- The next block. -/
theorem countedOp_erase {c : Config} {p : Profile} {o : OpRegs} (hkind : o.opKind = c.commands.erase)
    (hblock : o.curBlock.toNat + 1 < 2 ^ 32) :
    (countedOp c p o).curBlock.toNat = o.curBlock.toNat + 1 ∧ (countedOp c p o).curPage = o.curPage := by
  have hnext : (o.curBlock + 1).toNat = o.curBlock.toNat + 1 := by bv_omega
  simp only [countedOp, blockEnds, hkind, decide_true, Bool.true_or, if_true, hnext, and_self]

/-- Blocks and rows of a legal profile fit 32 bits. -/
theorem Profile.blockCount_le_rows {c : Config} {p : Profile} (h : p.ok c = true) : p.blockCount ≤ p.rows :=
  Nat.le_mul_of_pos_right _ (Profile.ok_bounds h).2.2.1

theorem PageOpOk.not_erase {p : Profile} {s : State} (hc : s.cfg.commandsDistinct = true) (h : PageOpOk p s) :
    s.op.opKind ≠ s.cfg.commands.erase := by
  obtain ⟨-, hre, hwe⟩ := kinds_ne hc
  rcases h.1 with hk | hk
  · exact hk ▸ hre
  · exact hk ▸ hwe

theorem Counted.operationOk {p : Profile} {s t : State} (h : Counted p s t) (hs : RegsOk s) (hheld : heldProfile s = some p)
    (hactive : active s.seq = true) : OperationOk t := by
  intro ht
  obtain ⟨p', hheld', hplace, hleft⟩ := hs.operation hactive
  obtain rfl : p' = p := Option.some.inj (hheld'.symm.trans hheld)
  have hprof := heldProfile_ok hs.config hheld
  obtain ⟨-, -, hppb, -, -, hrows, hppb', -⟩ := Profile.ok_bounds hprof
  have hblocks := Profile.blockCount_le_rows hprof
  have hnext : (s.op.opDone + 1).toNat = s.op.opDone.toNat + 1 := by bv_omega
  have hmore : s.op.opDone + 1 ≠ s.op.opTotal := by
    intro hlast
    rw [h.seq, seqAfterUnit, if_pos hlast] at ht
    cases ht
  have hmore' : s.op.opDone.toNat + 1 ≠ s.op.opTotal.toNat := fun e => hmore (BitVec.eq_of_toNat_eq (hnext.trans e))
  refine ⟨p', h.heldProfile_eq.trans hheld, ?_, ?_⟩
  · unfold PageOpOk EraseOpOk cursorRow
    rw [h.cfg, h.op]
    rcases hplace with hpageOp | ⟨hkind, hcur, hzero, hrange⟩
    · have hkind := hpageOp.not_erase hs.commands
      obtain ⟨hrw, hcur, hpage, hrange⟩ := hpageOp
      rw [cursorRow] at hcur
      have hmul : s.op.curBlock.toNat ≤ s.op.curBlock.toNat * p'.pagesPerBlock := Nat.le_mul_of_pos_right _ hppb
      obtain ⟨hrow, hpage'⟩ := countedOp_page (c := s.cfg) hkind hppb' hpage (by omega)
      refine .inl ⟨hrw, hrow.trans ?_, hpage', hrange⟩
      rw [hcur, Nat.add_assoc]
      exact congrArg _ hnext.symm
    · obtain ⟨hblock, hpage⟩ := countedOp_erase (p := p') hkind (by omega)
      refine .inr ⟨hkind, hblock.trans ?_, hpage.trans hzero, hrange⟩
      rw [hcur, Nat.add_assoc]
      exact congrArg _ hnext.symm
  · rw [h.op]
    show (s.op.opDone + 1).toNat < s.op.opTotal.toNat
    omega

/-! ## A started operation stands in its range (R277, R279) -/

/-- The range of a valid request lies in the array. -/
theorem validate_range {c : Config} {p : Profile} {kind : Byte} {r : Request} {start total : Nat}
    (h : validate c p kind r = some (start, total)) :
    start + total ≤ if kind = c.commands.erase then p.blockCount else p.rows := by
  unfold validate at h
  repeat' split at h
  all_goals cases h
  all_goals simp_all

theorem StartedAt.operationOk {p : Profile} {kind : Byte} {r : Request} {start total done0 : Nat} {s t : State}
    (hs : RegsOk s) (hheld : heldProfile s = some p)
    (hkind : kind = s.cfg.commands.read ∨ kind = s.cfg.commands.write ∨ kind = s.cfg.commands.erase)
    (hvalid : validate s.cfg p kind r = some (start, total)) (hleft : done0 < total) (h : Kept s t)
    (hop : StartedAt s.cfg p kind start total done0 t.op) : OperationOk t := by
  intro _
  have hprof := heldProfile_ok hs.config hheld
  obtain ⟨-, -, hppb, -, -, hrows, hppb', -⟩ := Profile.ok_bounds hprof
  obtain ⟨-, htotal, hend⟩ := validate_lt hprof hvalid
  have hrange := validate_range hvalid
  have toNat32 : ∀ n, n < 2 ^ 32 → (BitVec.ofNat 32 n).toNat = n := fun n hn => by
    rw [BitVec.toNat_ofNat, Nat.mod_eq_of_lt hn]
  refine ⟨p, h.heldProfile_eq.trans hheld, ?_, ?_⟩
  · unfold PageOpOk EraseOpOk cursorRow
    rw [h.cfg, hop.opKind, hop.opStart, hop.opTotal, hop.opDone, hop.curBlock, hop.curPage, toNat32 start (by omega),
      toNat32 total htotal, toNat32 done0 (by omega)]
    by_cases herase : kind = s.cfg.commands.erase
    · simp only [herase, if_true] at hrange ⊢
      exact .inr ⟨trivial, toNat32 _ (by omega), rfl, hrange⟩
    · simp only [herase, or_false, if_false] at hkind hrange ⊢
      have hdiv : (start + done0) / p.pagesPerBlock ≤ start + done0 := Nat.div_le_self _ _
      have hmod : (start + done0) % p.pagesPerBlock < p.pagesPerBlock := Nat.mod_lt _ hppb
      have hpage : (BitVec.ofNat 16 ((start + done0) % p.pagesPerBlock)).toNat = (start + done0) % p.pagesPerBlock := by
        rw [BitVec.toNat_ofNat, Nat.mod_eq_of_lt (by omega)]
      rw [toNat32 _ (by omega), hpage]
      exact .inl ⟨hkind, Nat.div_add_mod' _ _, hmod, hrange⟩
  · rw [hop.opDone, hop.opTotal, toNat32 total htotal, toNat32 done0 (by omega)]
    exact hleft

/-- Whatever a handling does, sound registers stay sound. -/
theorem Handling.regsOk {s t : State} (h : Handling s t) (hs : RegsOk s) : RegsOk t := by
  cases h with
  | quiet h => exact hs.of_kept h.toKept (h.operationOk h.op (by rw [h.seq]; exact id) hs.operation)
  | toggled hactive h hop => exact hs.of_kept h (h.operationOk (by rw [hop]; rfl) (fun _ => hactive) hs.operation)
  | counted p hheld hactive h => exact hs.of_kept h.toKept (h.operationOk hs hheld hactive)
  | started p kind r start total done0 hheld hkind hvalid hleft h hop =>
    exact hs.of_kept h (hop.operationOk hs hheld hkind hvalid hleft h)
  | stopped h hseq hdec hprofile =>
    refine ⟨h.cfg ▸ hs.config, h.cfg ▸ hs.commands, ?_, fun ha => ?_, ?_⟩
    · rw [ProfileOk, h.cfg]
      rcases hprofile with hsame | hnone | ⟨i, hi, hindex⟩
      · exact hsame ▸ hs.profile
      · exact .inl hnone
      · refine .inr (lt_of_le_of_lt ?_ hi)
        rw [hindex, BitVec.toNat_ofNat]
        exact Nat.mod_le _ _
    · rw [hseq] at ha
      cases ha
    · rw [h.cfg]
      rcases hdec with hsame | hhunt
      · exact hsame ▸ hs.decoder
      · simp [DecoderOk, hhunt]

/-! ## The engine and the turns -/

/-- An engine step is the decoder's, then a handling. -/
theorem engineStep_handling {s t : State} (h : engineStep s = .next t) :
    ∃ q d, (DecoderOk s.cfg s.dec → DecoderOk s.cfg d) ∧ Handling { s with rxq := q, dec := d } t := by
  unfold engineStep at h
  split at h
  · next b rest _ => exact ⟨rest, _, decoderOk_rxByte b, handling_serviceResult h⟩
  · refine ⟨s.rxq, s.dec, id, ?_⟩
    split at h
    · next hrun =>
      obtain ⟨p, hheld, h⟩ := withProfile_next h
      cases h
      exact handling_readUnit hheld (by rw [hrun.1]; rfl)
    · split at h
      · next hrun =>
        obtain ⟨p, hheld, h⟩ := withProfile_next h
        cases h
        exact handling_eraseUnit hheld (by rw [hrun.1]; rfl)
      · cases h
        exact .quiet (Quiet.refl s)

/-- So is every turn but a power-on. -/
theorem takeTurn_handling {turn : Turn} {s t : State} (h : takeTurn turn s = .next t) (hon : turn ≠ .powerOn)
    (hcut : ∀ n f, turn ≠ .powerOnDuring n f) :
    ∃ q d, (DecoderOk s.cfg s.dec → DecoderOk s.cfg d) ∧ Handling { s with rxq := q, dec := d } t := by
  cases turn with
  | engine => exact engineStep_handling h
  | hostSend => exact ⟨_, _, id, handling_hostSend h⟩
  | powerSample =>
    cases h
    exact ⟨_, _, id, handling_powerSample _ s⟩
  | inactivityTimeout =>
    cases h
    exact ⟨_, _, id, handling_inactivityTimeout s⟩
  | powerOn => exact absurd rfl hon
  | powerOnDuring n f => exact absurd rfl (hcut n f)
  | issue => exact ⟨_, _, id, handling_issue h⟩

/-- Taking bytes off `RXQ` moves nothing else. -/
theorem moves_receive (q : List Byte) (d : Decoder) (s : State) : Moves s { s with rxq := q, dec := d } :=
  moves_of_eq

theorem engineStep_moves {s t : State} (h : engineStep s = .next t) : Moves s t := by
  obtain ⟨q, d, -, hhandling⟩ := engineStep_handling h
  exact (moves_receive q d s).trans hhandling.moves

theorem takeTurn_moves {turn : Turn} {s t : State} (h : takeTurn turn s = .next t) (hon : turn ≠ .powerOn)
    (hcut : ∀ n f, turn ≠ .powerOnDuring n f) : Moves s t := by
  obtain ⟨q, d, -, hhandling⟩ := takeTurn_handling h hon hcut
  exact (moves_receive q d s).trans hhandling.moves

theorem takeTurn_regsOk {turn : Turn} {s t : State} (h : takeTurn turn s = .next t) (hon : turn ≠ .powerOn)
    (hcut : ∀ n f, turn ≠ .powerOnDuring n f) (hs : RegsOk s) : RegsOk t := by
  obtain ⟨q, d, hd, hhandling⟩ := takeTurn_handling h hon hcut
  exact hhandling.regsOk ⟨hs.config, hs.commands, hs.profile, hs.operation, hd hs.decoder⟩

theorem powerOn_frame (s : State) :
    (powerOn s).cfg = s.cfg ∧ (powerOn s).seq = .idle ∧ (powerOn s).ses.profile = 0xFF ∧
      (powerOn s).dec = Decoder.reset ∧ (powerOn s).die.arr = s.die.arr ∧ (powerOn s).env.power = .on := by
  simp [powerOn, sessionStart, Session.reset]

/-- After a power-on only the parameters and the array are as they were (R401). -/
theorem inv_powerOn {s : State} (hc : s.cfg.ok = true) (hd : s.cfg.commandsDistinct = true)
    (ha : Memory.wf s.die.arr = true) : Inv (powerOn s) := by
  obtain ⟨hcfg, hseq, hprofile, hdec, harr, hpower⟩ := powerOn_frame s
  refine ⟨hcfg ▸ hc, hcfg ▸ hd, hpower, harr ▸ ha, .inl hprofile, fun h => ?_, ?_⟩
  · rw [hseq] at h
    cases h
  · rw [hdec]
    trivial

/-- A step that completes took its turn. -/
theorem takeTurn_of_step {s t : State} (h : step s = .next t) : takeTurn (nextTurn s) (popTurn s) = .next t := by
  unfold step at h
  split at h
  · exact h
  · cases h

theorem inv_popTurn {s : State} (h : Inv s) : Inv (popTurn s) := h

theorem takeTurn_inv {turn : Turn} {s t : State} (hs : Inv s) (h : takeTurn turn s = .next t) : Inv t := by
  obtain ⟨hregs, hpower, harr⟩ := (inv_iff s).1 hs
  by_cases hon : turn = .powerOn
  · subst hon
    cases h
    exact inv_powerOn hregs.config hregs.commands harr
  by_cases hcut : ∃ n f, turn = .powerOnDuring n f
  · obtain ⟨n, f, rfl⟩ := hcut
    unfold takeTurn powerOnDuring at h
    dsimp only at h
    split at h
    · next u hu =>
      cases h
      have hmoves := engineStep_moves hu
      exact inv_powerOn (hmoves.cfg ▸ hregs.config) (hmoves.cfg ▸ hregs.commands) (hmoves.arr harr)
    · cases h
    · cases h
  simp only [not_exists] at hcut
  have hmoves := takeTurn_moves h hon hcut
  exact (inv_iff t).2 ⟨takeTurn_regsOk h hon hcut hregs, hmoves.power hpower, hmoves.arr harr⟩

/-- Settles O53: a power-on sets the registers up anew, any other turn is a `Handling`, which keeps the registers sound. -/
theorem everyStepKeepsTheMachineSound : Obligations.EveryStepKeepsTheMachineSound :=
  fun _ _ hs h => takeTurn_inv (inv_popTurn hs) (takeTurn_of_step h)

/-- Settles O57: every turn but a power-on is a `Handling`, which only adds to `TX`. -/
theorem txOnlyGrows : Obligations.TxOnlyGrows := by
  intro s t h hon hcut
  obtain ⟨frames, htx⟩ := (takeTurn_moves (takeTurn_of_step h) hon hcut).tx
  exact ⟨frames, htx.symm⟩

/-! ## Every use of the geometry is guarded (R27) -/

/-- Where the geometry is used a profile is held: `PROFILE` is `0xFF` or names an entry, and an active operation holds one. -/
structure Guarded (s : State) : Prop where
  profile : ProfileOk s
  operation : active s.seq = true → ∃ p, heldProfile s = some p

theorem RegsOk.guarded {s : State} (h : RegsOk s) : Guarded s :=
  ⟨h.profile, fun ha => (h.operation ha).imp fun _ hp => hp.1⟩

theorem Guarded.held {s : State} (h : Guarded s) (hne : s.ses.profile ≠ 0xFF) : ∃ p, heldProfile s = some p := by
  rw [heldProfile, if_neg hne]
  exact ⟨_, List.getElem?_eq_getElem (h.profile.resolve_left hne)⟩

/-- The model faults nowhere but in `withProfile`. -/
theorem withProfile_ne_fault {s : State} {f : Profile → Host.Outcome State Fault Refusal} {e : Fault}
    (hheld : ∃ p, heldProfile s = some p) (hf : ∀ p, f p ≠ .fault e) : withProfile s f ≠ .fault e := by
  obtain ⟨p, hp⟩ := hheld
  rw [withProfile, hp]
  exact hf p

theorem accepted_ne_fault {k : Cmd} {s : State} {handler : Host.Outcome State Fault Refusal} {e : Fault}
    (h : accept s.cfg k s.seq s.op.opKind = .accept → handler ≠ .fault e) : accepted k s handler ≠ .fault e := by
  unfold accepted
  split
  · next ha => exact h ha
  · nofun

theorem execStatus_ne_fault {s : State} (e : Fault) (hs : Guarded s) : execStatus s ≠ .fault e := by
  refine accepted_ne_fault (fun _ => ?_)
  split
  · nofun
  · next hne => exact withProfile_ne_fault (hs.held hne) (fun _ => nofun)

theorem startOp_ne_fault {kind : Byte} {r : Request} {s : State} (e : Fault) (hs : Guarded s) :
    startOp kind r s ≠ .fault e := by
  unfold startOp
  split
  · nofun
  · next hne =>
    refine withProfile_ne_fault (hs.held hne) (fun p => ?_)
    split <;> nofun

theorem onPause_ne_fault {s : State} (e : Fault) (hheld : ∃ p, heldProfile s = some p) : onPause s ≠ .fault e := by
  unfold onPause
  split
  · nofun
  · exact withProfile_ne_fault hheld (fun _ => nofun)

theorem onData_ne_fault {payload : List Byte} {s : State} (e : Fault) (hheld : ∃ p, heldProfile s = some p) :
    onData payload s ≠ .fault e := by
  refine withProfile_ne_fault hheld (fun p => ?_)
  split <;> nofun

theorem exec_unit_ne_fault {i : Instr} {payload : List Byte} {s : State} (e : Fault) (hs : Guarded s)
    (hi : unitPayload i = some payload) : exec i s ≠ .fault e := by
  rw [exec_of_unitPayload s hi]
  exact accepted_ne_fault (fun ha => onData_ne_fault e (hs.operation (active_of_accept_data ha)))

theorem exec_ne_fault {s : State} (i : Instr) (e : Fault) (hs : Guarded s) : exec i s ≠ .fault e := by
  by_cases hside : i.space = .response ∨ i.space = .bus
  · obtain ⟨u, hu, -⟩ := exec_quiet s hside
    rw [hu]
    nofun
  cases i with
  | status => exact execStatus_ne_fault e hs
  | read | write | erase => exact accepted_ne_fault (fun _ => startOp_ne_fault e hs)
  | pause =>
    exact accepted_ne_fault (fun ha => onPause_ne_fault e (hs.operation (by rw [running_of_accept_pause ha]; rfl)))
  | data | unitRaw | unitRle | unitBlank => exact exec_unit_ne_fault e hs rfl
  | cancel | resumeOp | setResume | select | redetect => exact accepted_ne_fault (fun _ => nofun)
  | powerCheck | exit => nofun
  | _ => simp [Instr.space] at hside

theorem engineStep_ne_fault {s : State} (e : Fault) (hs : Guarded s) : engineStep s ≠ .fault e := by
  unfold engineStep
  split
  · next b rest _ =>
    have hs' : Guarded { s with rxq := rest, dec := (rxByte s.cfg s.dec b).2 } := ⟨hs.profile, hs.operation⟩
    unfold service serviceResult
    split
    · nofun
    · unfold dispatchFrame
      split
      · exact exec_ne_fault _ e hs'
      · nofun
      · nofun
    · nofun
    · nofun
  · split
    · next hrun => exact withProfile_ne_fault (hs.operation (by rw [hrun.1]; rfl)) (fun _ => nofun)
    · split
      · next hrun => exact withProfile_ne_fault (hs.operation (by rw [hrun.1]; rfl)) (fun _ => nofun)
      · nofun

theorem takeTurn_ne_fault {s : State} (turn : Turn) (e : Fault) (hs : Guarded s) : takeTurn turn s ≠ .fault e := by
  cases turn with
  | engine => exact engineStep_ne_fault e hs
  | hostSend bytes =>
    show hostSend bytes s ≠ .fault e
    unfold hostSend
    split
    · nofun
    · split <;> nofun
  | powerSample | inactivityTimeout | powerOn => nofun
  | powerOnDuring n f =>
    have hs' : Guarded { s with env := { s.env with power := .failing n f } } := ⟨hs.profile, hs.operation⟩
    show powerOnDuring n f s ≠ .fault e
    unfold powerOnDuring
    split
    · nofun
    · next e' he => exact absurd he (engineStep_ne_fault e' hs')
    · nofun
  | issue sp bytes =>
    show issue sp bytes s ≠ .fault e
    unfold issue
    split
    · exact exec_ne_fault _ e hs
    · nofun

/-- Settles O54: where the geometry is used, `Inv` says that a profile is held. -/
theorem soundStatesNeverFault : Obligations.SoundStatesNeverFault := by
  intro s e hs
  unfold step
  split
  · exact takeTurn_ne_fault _ e ((inv_iff _).1 (inv_popTurn hs)).1.guarded
  · nofun

end Sys2Proof.Machine
end

section
/-! SUPPORT. The array as a function of its cells (spec/20_memory.md R68, R69, R73): a memory in canonical form is what it reads
as, so programming or erasing again is compared cell by cell. -/

namespace Sys2Proof.Machine

/-! ## Equality of memories -/

/-- No cell below the lowest listed one holds a value. -/
theorem read_eq_none_of_lt {m : Memory} {a : Nat} (h : ∀ e ∈ m, a < e.1) : Memory.read m a = none := by
  induction m with
  | nil => rfl
  | cons e r ih =>
    obtain ⟨hlt, hr⟩ := List.forall_mem_cons.1 h
    rw [Memory.read, if_neg hlt.ne', ih hr]

theorem wf_cons {k : Nat} {b : Byte} {r : Memory} :
    Memory.wf ((k, b) :: r) = true ↔ (∀ e ∈ r, k < e.1) ∧ Memory.wf r = true := by
  simp only [Memory.wf, decide_eq_true_eq, List.pairwise_cons]

@[simp] theorem read_cons_same (k : Nat) (b : Byte) (r : Memory) : Memory.read ((k, b) :: r) k = some b := if_pos rfl

/-- The lowest cell of one memory is listed in the other, so it is not below the other's lowest cell. -/
theorem lowest_le_of_read_eq {k k' : Nat} {b b' : Byte} {r r' : Memory} (h : Memory.wf ((k', b') :: r') = true)
    (heq : ∀ a, Memory.read ((k, b) :: r) a = Memory.read ((k', b') :: r') a) : k' ≤ k := by
  by_contra hlt
  have hnone : Memory.read ((k', b') :: r') k = none :=
    read_eq_none_of_lt (List.forall_mem_cons.2 ⟨by omega, fun e he => by have := (wf_cons.1 h).1 e he; omega⟩)
  rw [← heq k, read_cons_same] at hnone
  cases hnone

/-- Two memories in canonical form that read alike are the same. -/
theorem memory_ext {m m' : Memory} (hm : Memory.wf m = true) (hm' : Memory.wf m' = true)
    (h : ∀ a, Memory.read m a = Memory.read m' a) : m = m' := by
  induction m generalizing m' with
  | nil =>
    cases m' with
    | nil => rfl
    | cons e r =>
      have he := h e.1
      rw [read_cons_same] at he
      cases he
  | cons e r ih =>
    obtain ⟨k, b⟩ := e
    cases m' with
    | nil =>
      have he := h k
      rw [read_cons_same] at he
      cases he
    | cons e' r' =>
      obtain ⟨k', b'⟩ := e'
      obtain rfl : k = k' :=
        Nat.le_antisymm (lowest_le_of_read_eq hm fun a => (h a).symm) (lowest_le_of_read_eq hm' h)
      obtain rfl : b = b' := by simpa using h k
      obtain ⟨hlow, hr⟩ := wf_cons.1 hm
      obtain ⟨hlow', hr'⟩ := wf_cons.1 hm'
      refine congrArg _ (ih hr hr' fun a => ?_)
      by_cases ha : k = a
      · rw [read_eq_none_of_lt (ha ▸ hlow), read_eq_none_of_lt (ha ▸ hlow')]
      · simpa [Memory.read, ha] using h a

/-! ## Programming and erasing again (R73) -/

/-- The cell of a programmed row is listed, with the old byte AND the new one (R68). -/
theorem read_programRow (m : Memory) (row : Nat) (d : List Byte) (i : Nat) (h : i < d.length) :
    Memory.read (programRow m row d) (cellAddr row i) = some (cellByte m (cellAddr row i) &&& d[i]) := by
  have hoff : cellAddr row i - cellAddr row 0 = i := by simp only [cellAddr]; omega
  rw [programRow, read_writeRun, if_pos (by simp only [cellAddr, List.length_zipWith, readRow_length]; omega), hoff]
  simp [h, readRow]

/-- `(x & d) & d = x & d` in the row, and nothing moves outside it. -/
theorem programRow_programRow {m : Memory} (hm : Memory.wf m = true) (row : Nat) (d : List Byte) :
    programRow (programRow m row d) row d = programRow m row d := by
  have hm' := programRow_wf m row d hm
  refine memory_ext (programRow_wf _ row d hm') hm' fun a => ?_
  by_cases ha : InRows row 1 d.length a
  · obtain ⟨r, i, hlo, hhi, hi, rfl⟩ := ha
    obtain rfl : r = row := by omega
    rw [read_programRow _ _ _ _ hi, cellByte_programRow _ _ _ _ hi, read_programRow _ _ _ _ hi, BitVec.and_assoc,
      BitVec.and_self]
  · exact sameOutside_programRow _ row d a ha

/-- The rows are `0xFF` after the first erase already, and nothing moves outside them. -/
theorem eraseRows_eraseRows {m : Memory} (hm : Memory.wf m = true) (row n : Nat) {u : Nat} (hu : u ≤ 65536) :
    eraseRows (eraseRows m row n u) row n u = eraseRows m row n u := by
  have hm' := eraseRows_wf n m row u hm
  refine memory_ext (eraseRows_wf n _ row u hm') hm' fun a => ?_
  by_cases ha : InRows row n u a
  · obtain ⟨r, i, hlo, hhi, hi, rfl⟩ := ha
    rw [read_eraseRows n _ row u r i hi hu hlo hhi, read_eraseRows n _ row u r i hi hu hlo hhi]
  · exact sameOutside_eraseRows n _ row u a ha

/-- Settles O10, cell by cell. -/
theorem programAndEraseAreIdempotent : Obligations.ProgramAndEraseAreIdempotent :=
  fun _ row n _ data hm hu => ⟨programRow_programRow hm row data, eraseRows_eraseRows hm row n hu⟩

end Sys2Proof.Machine
end

section
/-! SUPPORT. What instructions leave alone (spec/20_memory.md R60, spec/45_checkpoint.md R254, R258, spec/10_state.md R27,
spec/48_commands.md R332): the bus opcodes all but the bus side, the instructions that only read the durable state, and the
session registers while an operation goes on. -/

namespace Sys2Proof.Machine

/-! ## The bus opcodes -/

/-- The nine bus opcodes complete, whatever is latched, and move the bus side only. -/
theorem exec_busOnly {i : Instr} (s : State) (h : i.space = .bus) : ∃ t, exec i s = .next t ∧ BusOnly s t := by
  cases i with
  | opReadSetup => exact ⟨_, rfl, busOnly_busReadSetup _ s⟩
  | opReadConfirm => exact ⟨_, rfl, busOnly_busReadConfirm _ s⟩
  | opProgSetup => exact ⟨_, rfl, busOnly_busProgSetup _ _ s⟩
  | opProgConfirm => exact ⟨_, rfl, busOnly_busProgConfirm s⟩
  | opEraseSetup => exact ⟨_, rfl, busOnly_busEraseSetup _ s⟩
  | opEraseConfirm => exact ⟨_, rfl, busOnly_busEraseConfirm s⟩
  | opReadStatus => exact ⟨_, rfl, busOnly_busReadStatus s⟩
  | opReadId => exact ⟨_, rfl, busOnly_busReadId s⟩
  | opReset => exact ⟨_, rfl, busOnly_busReset s⟩
  | _ => simp [Instr.space] at h

/-- Settles O17. -/
theorem busOpcodesMoveOnlyTheBusSide : Obligations.BusOpcodesMoveOnlyTheBusSide :=
  fun _ s h => exec_busOnly s h

theorem busOnly_of_exec {i : Instr} {s t : State} (hi : i.space = .bus) (h : exec i s = .next t) : BusOnly s t := by
  obtain ⟨u, hu, hbus⟩ := exec_busOnly s hi
  cases hu.symm.trans h
  exact hbus

theorem BusOnly.cp {s t : State} (h : BusOnly s t) : t.cp = s.cp := by rw [h.registers]

theorem BusOnly.ses {s t : State} (h : BusOnly s t) : t.ses = s.ses := by rw [h.registers]

/-! ## The check of R332 -/

/-- What the handler does where R332 accepts the command, and a refusal does as well, holds of the command. -/
theorem accepted_keeps {R : State → State → Prop} {k : Cmd} {s t : State} {handler : Host.Outcome State Fault Refusal}
    (hreject : ∀ cause ctx, R s (reject cause ctx s))
    (hrun : accept s.cfg k s.seq s.op.opKind = .accept → handler = .next t → R s t) (h : accepted k s handler = .next t) :
    R s t := by
  unfold accepted at h
  split at h
  · next ha => exact hrun ha h
  · cases h
    exact hreject _ _

/-- `STATUS` is one frame (R330). -/
theorem execStatus_next {s t : State} (h : execStatus s = .next t) : ∃ i, t = emit i s := by
  refine accepted_keeps (R := fun s t => ∃ i, t = emit i s) (fun _ _ => ⟨_, rfl⟩) (fun _ hrun => ?_) h
  split at hrun
  · cases hrun
    exact ⟨_, rfl⟩
  · obtain ⟨p, -, hrun⟩ := withProfile_next hrun
    cases hrun
    exact ⟨_, rfl⟩

/-! ## The array and the record together -/

/-- The array and the checkpoint record are the same. -/
structure SameDurable (s t : State) : Prop where
  arr : t.die.arr = s.die.arr
  cp : t.cp = s.cp

theorem SameDurable.refl (s : State) : SameDurable s s := ⟨rfl, rfl⟩

theorem SameDurable.trans {s t u : State} (h : SameDurable s t) (k : SameDurable t u) : SameDurable s u :=
  ⟨k.arr.trans h.arr, k.cp.trans h.cp⟩

theorem BusOnly.sameDurable {s t : State} (h : BusOnly s t) (harr : t.die.arr = s.die.arr) : SameDurable s t :=
  ⟨harr, h.cp⟩

theorem sameDurable_draw (s : State) : SameDurable s (draw s).2 := ⟨by simp, by simp⟩

@[simp] theorem dieRead_die (l : Latch) (n : Nat) (s : State) : (dieRead l n s).2.die = s.die := by
  unfold dieRead
  split
  · split
    · rfl
    · exact drawBytes_die n s
  all_goals exact drawBytes_die n s

theorem sameDurable_busReadConfirm (n : Nat) (s : State) : SameDurable s (busReadConfirm n s).2 := by
  refine (busOnly_busReadConfirm n s).sameDurable ?_
  unfold busReadConfirm
  dsimp only
  split <;> simp

theorem sameDurable_busReadId (s : State) : SameDurable s (busReadId s).2 :=
  (busOnly_busReadId s).sameDurable (by simp [busReadId, idBytes, idCycles])

theorem sameDurable_busReset (s : State) : SameDurable s (busReset s).2 :=
  (busOnly_busReset s).sameDurable (by simp [busReset])

theorem sameDurable_memRead (row n : Nat) (s : State) : SameDurable s (memRead row n s).2 := by
  have h : SameDurable s (busReadConfirm n (busReadSetup (addrBytes s.cfg 0 row) s)).2 :=
    ((busOnly_busReadSetup _ s).sameDurable rfl).trans (sameDurable_busReadConfirm n _)
  unfold memRead
  dsimp only
  split <;> exact h

theorem sameDurable_readRetry (row n : Nat) (s : State) : SameDurable s (readRetry row n s).2 :=
  withBusRetry_keeps (R := SameDurable) SameDurable.trans (sameDurable_memRead row n) _ s

theorem sameDurable_resetRetry (k : Nat) (s : State) : SameDurable s (resetRetry k s).2 := by
  induction k generalizing s with
  | zero => exact sameDurable_busReset s
  | succ k ih =>
    unfold resetRetry
    split
    · exact sameDurable_busReset s
    · exact (sameDurable_busReset s).trans (ih _)

theorem sameDurable_setTiming (t : Timing) (s : State) : SameDurable s (setTiming t s) := ⟨rfl, rfl⟩

theorem sameDurable_trialReadId (s : State) : SameDurable s (trialReadId s).2 :=
  ((busOnly_drawBytes _ s).trans (busOnly_idCycles _ _)).sameDurable (by simp [idCycles])

theorem sameDurable_autotuneLoop (ref : List Byte) (cs : List Timing) (best : Timing) (s : State) :
    SameDurable s (autotuneLoop ref cs best s) := by
  induction cs generalizing best s with
  | nil => exact sameDurable_setTiming best s
  | cons c cs ih =>
    have htrial := (sameDurable_setTiming c s).trans (sameDurable_trialReadId _)
    simp only [autotuneLoop]
    split
    · exact htrial.trans (ih _ _)
    · exact htrial.trans (sameDurable_setTiming _ _)

theorem sameDurable_autotune (s : State) : SameDurable s (autotune s) :=
  ((sameDurable_setTiming _ s).trans (sameDurable_busReadId _)).trans (sameDurable_autotuneLoop _ _ _ _)

theorem sameDurable_setSession (x : Session) (s : State) : SameDurable s { s with ses := x } := ⟨rfl, rfl⟩

theorem sameDurable_emit (i : Instr) (s : State) : SameDurable s (emit i s) := ⟨rfl, rfl⟩

theorem sameDurable_reject (cause : Cause) (ctx : Byte) (s : State) : SameDurable s (reject cause ctx s) := ⟨rfl, rfl⟩

theorem sameDurable_rejectNoChip (ctx : Byte) (s : State) : SameDurable s (rejectNoChip ctx s) := by
  rw [rejectNoChip_eq]
  exact ⟨rfl, rfl⟩

theorem sameDurable_onSelect (index : Byte) (s : State) : SameDurable s (onSelect index s) := by
  unfold onSelect
  split
  · exact sameDurable_rejectNoChip _ s
  · exact ⟨rfl, rfl⟩

/-- A profile is held from here on, with the bus tuned to it or not (R340). -/
theorem sameDurable_hold (tune : Bool) (x : Session) (s : State) :
    SameDurable s (if tune then autotune { s with ses := x } else { s with ses := x }) := by
  split
  · exact (sameDurable_setSession x s).trans (sameDurable_autotune _)
  · exact sameDurable_setSession x s

theorem sameDurable_onRedetect (s : State) : SameDurable s (onRedetect s) := by
  have hreset := SameDurable.trans (sameDurable_setSession { s.ses with profile := 0xFF } s)
    (sameDurable_resetRetry s.cfg.busRetryMax _)
  have hread := hreset.trans (sameDurable_busReadId _)
  unfold onRedetect
  dsimp only
  split
  · exact hreset.trans (sameDurable_reject _ _ _)
  · split
    · exact hread.trans (sameDurable_rejectNoChip _ _)
    · exact (hread.trans (sameDurable_hold _ _ _)).trans (sameDurable_emit _ _)

theorem sameDurable_sessionStart (s : State) : SameDurable s (sessionStart s) := by
  simp only [sessionStart]
  exact ⟨(sameDurable_draw s).arr, (sameDurable_draw s).cp⟩

theorem sameDurable_onExit (s : State) : SameDurable s (onExit s) := by
  have hcancel : SameDurable s (if active s.seq then cancelOp s else s) := by
    split
    · exact ⟨rfl, rfl⟩
    · exact SameDurable.refl s
  exact (hcancel.trans (sameDurable_emit _ _)).trans (sameDurable_sessionStart _)

theorem sameDurable_powerCheck (s : State) : SameDurable s (powerCheck s) :=
  ⟨(sameDurable_draw s).arr, (sameDurable_draw s).cp⟩

theorem sameDurable_of_accepted {k : Cmd} {s t : State} {handler : Host.Outcome State Fault Refusal}
    (hrun : handler = .next t → SameDurable s t) (h : accepted k s handler = .next t) : SameDurable s t :=
  accepted_keeps (fun _ _ => sameDurable_reject _ _ s) (fun _ => hrun) h

/-- An instruction that brings no unit, confirms nothing, starts no operation, neither pauses nor sets the resume mode. -/
theorem sameDurable_of_exec {i : Instr} {s t : State} (hunit : unitPayload i = none) (hreq : requestOf s.cfg i = none)
    (hpause : i ≠ .pause) (hset : ∀ m, i ≠ .setResume m) (hprog : i ≠ .opProgConfirm) (herase : i ≠ .opEraseConfirm)
    (h : exec i s = .next t) : SameDurable s t := by
  cases i with
  | status =>
    obtain ⟨_, rfl⟩ := execStatus_next h
    exact sameDurable_emit _ s
  | cancel | resumeOp =>
    refine sameDurable_of_accepted (fun hrun => ?_) h
    cases hrun
    exact ⟨rfl, rfl⟩
  | powerCheck =>
    cases h
    exact sameDurable_powerCheck s
  | select index =>
    refine sameDurable_of_accepted (fun hrun => ?_) h
    cases hrun
    exact sameDurable_onSelect index s
  | redetect =>
    refine sameDurable_of_accepted (fun hrun => ?_) h
    cases hrun
    exact sameDurable_onRedetect s
  | exit =>
    cases h
    exact sameDurable_onExit s
  | rspAck | rspModel | rspProgress | rspComplete | rspFailed | rspPower | rspListStart | rspListEntry | rspListEnd
  | rspData | opReadSetup | opProgSetup | opEraseSetup | opReadStatus =>
    cases h
    exact ⟨rfl, rfl⟩
  | opReadConfirm n =>
    cases h
    exact sameDurable_busReadConfirm n.toNat s
  | opReadId =>
    cases h
    exact sameDurable_busReadId s
  | opReset =>
    cases h
    exact sameDurable_busReset s
  | read | write | erase => cases hreq
  | pause => exact absurd rfl hpause
  | setResume m => exact absurd rfl (hset m)
  | opProgConfirm => exact absurd rfl hprog
  | opEraseConfirm => exact absurd rfl herase
  | data | unitRaw | unitRle | unitBlank => cases hunit

/-! ## The array under operation starts, `PAUSE` and `SET_RESUME` -/

@[simp] theorem clearCp_die (s : State) : (clearCp s).die = s.die := by rw [(clearCp_frame s).1]

@[simp] theorem clearCp_ses (s : State) : (clearCp s).ses = s.ses := by rw [(clearCp_frame s).1]

@[simp] theorem saveProgress_die (p : Profile) (s : State) : (saveProgress p s).die = s.die := by
  rw [saveProgress, (save_frame _ _ _ _ _ s).1]

@[simp] theorem saveProgress_ses (p : Profile) (s : State) : (saveProgress p s).ses = s.ses := by
  rw [saveProgress, (save_frame _ _ _ _ _ s).1]

theorem resumeDecision_arr (p : Profile) (kind : Byte) (start total : Nat) (s : State) :
    (resumeDecision p kind start total s).2.die.arr = s.die.arr := by
  have hread := (sameDurable_readRetry (cpRow p s.cp) p.unitSize s).arr
  unfold resumeDecision
  dsimp only
  split
  · rfl
  · split
    · simp
    · split
      · split
        · split
          · exact hread
          · simpa using hread
        · exact hread
        · exact hread
      · rfl

@[simp] theorem announce_die (info : Byte) (s : State) : (announce info s).die = s.die := by
  unfold announce
  dsimp only
  split <;> simp [completeOp]

theorem runOp_arr (p : Profile) (kind : Byte) (r : Request) (start total : Nat) (s : State) :
    (runOp p kind r start total s).die.arr = s.die.arr := by
  have hresume : (resumeDecision p kind start total (beginOp p kind r start total s)).2.die.arr = s.die.arr :=
    resumeDecision_arr p kind start total _
  unfold runOp
  dsimp only
  split
  · exact hresume
  · rw [announce_die]
    split <;> exact hresume

theorem arr_of_startOp {kind : Byte} {r : Request} {s t : State} (h : startOp kind r s = .next t) :
    t.die.arr = s.die.arr := by
  unfold startOp at h
  split at h
  · cases h
    rfl
  · obtain ⟨p, -, h⟩ := withProfile_next h
    split at h
    · cases h
      rfl
    · cases h
      exact runOp_arr _ _ _ _ _ s

/-- `PAUSE` moves neither the die nor the session. -/
theorem onPause_keeps {s t : State} (h : onPause s = .next t) : t.die = s.die ∧ t.ses = s.ses := by
  unfold onPause at h
  split at h
  · cases h
    exact ⟨rfl, rfl⟩
  · obtain ⟨p, -, h⟩ := withProfile_next h
    cases h
    simp

theorem onSetResume_die (mode : Byte) (s : State) : (onSetResume mode s).die = s.die := by
  unfold onSetResume
  split
  · rfl
  · split
    · simp
    · rfl

theorem arr_of_accepted {k : Cmd} {s t : State} {handler : Host.Outcome State Fault Refusal}
    (hrun : handler = .next t → t.die.arr = s.die.arr) (h : accepted k s handler = .next t) : t.die.arr = s.die.arr :=
  accepted_keeps (R := fun s t => t.die.arr = s.die.arr) (fun _ _ => rfl) (fun _ => hrun) h

theorem arr_of_exec {i : Instr} {s t : State} (hunit : unitPayload i = none) (hprog : i ≠ .opProgConfirm)
    (herase : i ≠ .opEraseConfirm) (h : exec i s = .next t) : t.die.arr = s.die.arr := by
  cases i with
  | read | write | erase => exact arr_of_accepted arr_of_startOp h
  | pause => exact arr_of_accepted (fun hrun => congrArg Die.arr (onPause_keeps hrun).1) h
  | setResume mode =>
    refine arr_of_accepted (fun hrun => ?_) h
    cases hrun
    rw [onSetResume_die]
  | _ => exact (sameDurable_of_exec hunit rfl nofun nofun hprog herase h).arr

theorem cp_of_exec {i : Instr} {s t : State} (hunit : unitPayload i = none) (hreq : requestOf s.cfg i = none)
    (hpause : i ≠ .pause) (hset : ∀ m, i ≠ .setResume m) (h : exec i s = .next t) : t.cp = s.cp := by
  cases i with
  | opProgConfirm | opEraseConfirm => exact (busOnly_of_exec rfl h).cp
  | _ => exact (sameDurable_of_exec hunit hreq hpause hset nofun nofun h).cp

/-- Settles O56: an operation start, `PAUSE` and `SET_RESUME` move the record but not the array, the two confirms the array but
not the record, and the other instructions without a unit neither. -/
theorem otherInstructionsLeaveDurableState : Obligations.OtherInstructionsLeaveDurableState :=
  fun _ _ _ hunit h =>
    ⟨fun hprog herase => arr_of_exec hunit hprog herase h, fun hreq hpause hset => cp_of_exec hunit hreq hpause hset h⟩

/-! ## The session during an operation -/

theorem busOnly_writeOne (p : Profile) (row : Nat) (x : List Byte) (k : Nat) (s : State) :
    BusOnly s (writeOne p row x k s).2 := by
  have hverify : ∀ t, BusOnly t (readRetry row p.unitSize (writeRetry row x t).2).2 :=
    fun t => (busOnly_writeRetry row x t).trans (busOnly_readRetry _ _ _)
  fun_induction writeOne p row x k s with
  | case1 | case2 | case3 => exact busOnly_writeRetry row x _
  | case4 | case5 | case7 | case8 => exact hverify _
  | case6 =>
    rename_i ih
    exact (hverify _).trans ih

theorem busOnly_blankCheck (u row n : Nat) (s : State) : BusOnly s (blankCheck u row n s).2 := by
  fun_induction blankCheck u row n s with
  | case1 => exact BusOnly.refl _
  | case2 =>
    rename_i ih
    exact (busOnly_readRetry _ _ _).trans ih
  | case3 | case4 | case5 => exact busOnly_readRetry _ _ _

theorem busOnly_eraseOne (p : Profile) (block k : Nat) (s : State) : BusOnly s (eraseOne p block k s).2 := by
  have hverify : ∀ t, BusOnly t
      (blankCheck p.unitSize (block * p.pagesPerBlock) p.pagesPerBlock (eraseRetry p block t).2).2 :=
    fun t => (busOnly_eraseRetry p block t).trans (busOnly_blankCheck _ _ _ _)
  fun_induction eraseOne p block k s with
  | case1 | case2 | case3 => exact busOnly_eraseRetry p block _
  | case4 | case5 | case6 => exact hverify _
  | case7 =>
    rename_i ih
    exact (hverify _).trans ih

@[simp] theorem finishUnit_ses (p : Profile) (s : State) : (finishUnit p s).ses = s.ses := by
  unfold finishUnit
  dsimp only
  split
  · simp [completeOp]
  · split <;> simp

@[simp] theorem finishWrite_ses (p : Profile) (x : List Byte) (s : State) : (finishWrite p x s).ses = s.ses :=
  finishUnit_ses p _

theorem readUnit_ses (p : Profile) (s : State) : (readUnit p s).ses = s.ses := by
  have hread := (busOnly_readRetry (cursorRow p s) p.unitSize s).ses
  unfold readUnit
  dsimp only
  split <;> simpa using hread

theorem writeUnit_ses (p : Profile) (x : List Byte) (s : State) : (writeUnit p x s).ses = s.ses := by
  have hwrite := (busOnly_writeOne p (cursorRow p s) x s.cfg.verifyRetryMax s).ses
  unfold writeUnit
  dsimp only
  split
  · simp
  · split <;> simpa using hwrite

theorem eraseUnit_ses (p : Profile) (s : State) : (eraseUnit p s).ses = s.ses := by
  have herase := (busOnly_eraseOne p s.op.curBlock.toNat s.cfg.verifyRetryMax s).ses
  unfold eraseUnit
  dsimp only
  split <;> simpa using herase

theorem ses_of_onData {payload : List Byte} {s t : State} (h : onData payload s = .next t) : t.ses = s.ses := by
  obtain ⟨p, -, h⟩ := withProfile_next h
  split at h
  · cases h
    rfl
  · cases h
    exact writeUnit_ses p _ s

/-- The session registers stay while an operation goes on (R27). -/
def SessionStays (s t : State) : Prop := active s.seq = true → active t.seq = true → t.ses = s.ses

theorem SessionStays.of_eq {s t : State} (h : t.ses = s.ses) : SessionStays s t := fun _ _ => h

theorem SessionStays.of_ended {s t : State} (h : active t.seq = false) : SessionStays s t := fun _ ht =>
  absurd ht (by simp [h])

theorem sessionStays_of_accepted {k : Cmd} {s t : State} {handler : Host.Outcome State Fault Refusal}
    (hrun : accept s.cfg k s.seq s.op.opKind = .accept → handler = .next t → SessionStays s t)
    (h : accepted k s handler = .next t) : SessionStays s t :=
  accepted_keeps (fun _ _ => .of_eq rfl) hrun h

/-- The commands that R332 rejects as busy while an operation is active. -/
theorem sessionStays_of_idleOnly {k : Cmd} {s t : State} {handler : Host.Outcome State Fault Refusal}
    (hidle : accept s.cfg k s.seq s.op.opKind = .accept → active s.seq = false) (h : accepted k s handler = .next t) :
    SessionStays s t :=
  sessionStays_of_accepted (fun ha _ hactive => absurd hactive (by simp [hidle ha])) h

/-- Only `SET_RESUME`, `SELECT`, `REDETECT` and `EXIT` write a session register: three are rejected while an operation is
active, the fourth ends it. -/
theorem sessionStays_of_exec {i : Instr} {s t : State} (h : exec i s = .next t) : SessionStays s t := by
  cases i with
  | status =>
    obtain ⟨_, rfl⟩ := execStatus_next h
    exact .of_eq rfl
  | read | write | erase | setResume | select | redetect => exact sessionStays_of_idleOnly (by simp [accept]) h
  | cancel =>
    refine sessionStays_of_accepted (fun _ hrun => ?_) h
    cases hrun
    exact .of_ended rfl
  | pause => exact sessionStays_of_accepted (fun _ hrun => .of_eq (onPause_keeps hrun).2) h
  | resumeOp =>
    refine sessionStays_of_accepted (fun _ hrun => ?_) h
    cases hrun
    exact .of_eq rfl
  | powerCheck =>
    cases h
    exact .of_eq (draw_ses s)
  | exit =>
    cases h
    exact .of_ended rfl
  | data | unitRaw | unitRle | unitBlank =>
    exact sessionStays_of_accepted (fun _ hrun => .of_eq (ses_of_onData hrun)) h
  | rspAck | rspModel | rspProgress | rspComplete | rspFailed | rspPower | rspListStart | rspListEntry | rspListEnd
  | rspData =>
    cases h
    exact .of_eq rfl
  | _ => exact .of_eq (busOnly_of_exec rfl h).ses

theorem onFrameError_ses (cause : Cause) (s : State) : (onFrameError cause s).ses = s.ses := by
  have hcount : (bumpFrameErr (reject cause 0x00 s)).2.ses = s.ses := by rw [bumpFrameErr_frame]; rfl
  unfold onFrameError
  dsimp only
  split
  · split <;> exact hcount
  · rfl

theorem sessionStays_of_dispatchFrame {cmd : Byte} {payload : List Byte} {s t : State}
    (h : dispatchFrame cmd payload s = .next t) : SessionStays s t := by
  unfold dispatchFrame at h
  split at h
  · exact sessionStays_of_exec h
  all_goals
    cases h
    exact .of_eq rfl

theorem sessionStays_of_serviceResult {r : RxResult} {s t : State} (h : serviceResult r s = .next t) :
    SessionStays s t := by
  cases r with
  | none =>
    cases h
    exact .of_eq rfl
  | frame => exact sessionStays_of_dispatchFrame h
  | errChecksum | errLength =>
    cases h
    exact .of_eq (onFrameError_ses _ s)

theorem sessionStays_of_engineStep {s t : State} (h : engineStep s = .next t) : SessionStays s t := by
  unfold engineStep at h
  split at h
  · next b rest _ =>
    have hservice : SessionStays { s with rxq := rest, dec := (rxByte s.cfg s.dec b).2 } t :=
      sessionStays_of_serviceResult h
    exact hservice
  · split at h
    · obtain ⟨p, -, h⟩ := withProfile_next h
      cases h
      exact .of_eq (readUnit_ses p s)
    · split at h
      · obtain ⟨p, -, h⟩ := withProfile_next h
        cases h
        exact .of_eq (eraseUnit_ses p s)
      · cases h
        exact .of_eq rfl

theorem powerSample_ses (mv : U16) (s : State) : (powerSample mv s).ses = s.ses := by
  unfold powerSample
  dsimp only
  split
  · split <;> rfl
  · rfl

/-- The timeout leaves the sequencer `Idle` where it is enabled, and nothing moves where it is not. -/
theorem sessionStays_inactivityTimeout (s : State) : SessionStays s (inactivityTimeout s) := by
  unfold inactivityTimeout
  split
  · exact .of_ended rfl
  · exact .of_eq rfl

theorem powerOn_inactive (s : State) : active (powerOn s).seq = false := by
  obtain ⟨-, hseq, -⟩ := powerOn_frame s
  rw [hseq]
  rfl

/-- A cut step is an engine step, then the power-on. -/
theorem powerOnDuring_next {n : Nat} {f : Bool} {s t : State} (h : powerOnDuring n f s = .next t) :
    ∃ u, engineStep { s with env := { s.env with power := .failing n f } } = .next u ∧ t = powerOn u := by
  unfold powerOnDuring at h
  split at h
  · next u hu =>
    cases h
    exact ⟨u, hu, rfl⟩
  · cases h
  · cases h

theorem sessionStays_of_takeTurn {turn : Turn} {s t : State} (h : takeTurn turn s = .next t) : SessionStays s t := by
  cases turn with
  | engine => exact sessionStays_of_engineStep h
  | hostSend bytes =>
    unfold takeTurn hostSend at h
    dsimp only at h
    repeat' split at h
    all_goals cases h
    all_goals exact .of_eq rfl
  | powerSample mv =>
    cases h
    exact .of_eq (powerSample_ses mv s)
  | inactivityTimeout =>
    cases h
    exact sessionStays_inactivityTimeout s
  | powerOn =>
    cases h
    exact .of_ended (powerOn_inactive s)
  | powerOnDuring n f =>
    obtain ⟨u, -, rfl⟩ := powerOnDuring_next h
    exact .of_ended (powerOn_inactive u)
  | issue sp bytes =>
    unfold takeTurn issue at h
    dsimp only at h
    split at h
    · exact sessionStays_of_exec h
    · cases h

theorem cfg_of_takeTurn {turn : Turn} {s t : State} (h : takeTurn turn s = .next t) : t.cfg = s.cfg := by
  cases turn with
  | powerOn =>
    cases h
    exact (powerOn_frame s).1
  | powerOnDuring n f =>
    obtain ⟨u, hu, rfl⟩ := powerOnDuring_next h
    exact (powerOn_frame u).1.trans (engineStep_moves hu).cfg
  | _ => exact (takeTurn_moves h nofun nofun).cfg

/-- Settles O59, turn by turn. -/
theorem sessionIsFixedDuringAnOperation : Obligations.SessionIsFixedDuringAnOperation := by
  intro s t h
  have hturn := takeTurn_of_step h
  have hcfg := cfg_of_takeTurn hturn
  have hstays := sessionStays_of_takeTurn hturn
  exact ⟨hcfg, hstays⟩

end Sys2Proof.Machine
end

section
/-! SUPPORT. The decoder and the encoder (spec/30_encoding.md R90 to R118): in each of the four spaces, the one reads back what
the other writes, and writes back what the other reads. -/

namespace Sys2Proof

/-! ## Instructions as code byte and operands -/

/-- A host frame or an engine frame carries the instruction (R90). -/
def Instr.framed (i : Instr) : Prop := i.space = .command ∨ i.space = .response

/-- A command or a response is encoded as a frame (R142). -/
theorem encode_of_framed {i : Instr} (h : i.framed) (c : Config) : encode c i = encodeFrame c (i.codeByte c) i.operands := by
  rcases h with h | h <;> simp only [encode, h]

/-- A stream unit or a bus opcode is its code byte and what follows it (R113, R118). -/
theorem encode_of_not_framed {i : Instr} (h : i.space = .unit ∨ i.space = .bus) (c : Config) :
    encode c i = i.codeByte c :: i.operands := by
  rcases h with h | h <;> simp only [encode, h]

/-- A command or a response is well formed exactly when its payload fits `MAX_PAYLOAD` and the `LEN` field (R96, R90). -/
theorem wf_iff_operands_fit {i : Instr} (h : i.framed) (c : Config) :
    i.wf c = true ↔ i.operands.length ≤ c.maxPayload ∧ i.operands.length < 2 ^ 32 := by
  cases i with
  | unitRaw | unitRle | unitBlank | opReadSetup | opReadConfirm | opProgSetup | opProgConfirm | opEraseSetup | opEraseConfirm
    | opReadStatus | opReadId | opReset => simp [Instr.framed, Instr.space] at h
  | rspModel | rspListEntry => simp [Instr.wf, Instr.operands, Nat.add_comm]
  | _ => simp [Instr.wf, Instr.operands]

/-- A well-formed command or response travels in a frame that reads back whole. -/
theorem decodeFrame_encode {c : Config} {i : Instr} (h : i.framed) (hwf : i.wf c = true) :
    decodeFrame c (encode c i) = .ok (i.codeByte c, i.operands) := by
  obtain ⟨hmax, hlen⟩ := (wf_iff_operands_fit h c).1 hwf
  rw [encode_of_framed h]
  exact decodeFrame_encodeFrame c _ _ hmax hlen

/-- An instruction with the code and payload of a frame that reads is well formed, and the frame is its encoding. -/
theorem wf_and_encode_of_decodeFrame {c : Config} {bytes : List Byte} {i : Instr} (h : i.framed)
    (hf : decodeFrame c bytes = .ok (i.codeByte c, i.operands)) : i.wf c = true ∧ encode c i = bytes := by
  obtain ⟨hbytes, hmax, hlen⟩ := encodeFrame_of_decodeFrame hf
  exact ⟨(wf_iff_operands_fit h c).2 ⟨hmax, hlen⟩, by rw [encode_of_framed h, hbytes]⟩

/-! ## Commands (R93, R95) -/

/-- The payload has the length R93 gives for the command, if it gives one. -/
def Cmd.lengthOk (k : Cmd) (p : List Byte) : Prop := ∀ n, k.fixedLen = some n → p.length = n

/-- The code check and the length check of R95 are all that stands between a frame and the command it is. -/
theorem decodeCommand_eq_ok_iff {c : Config} {cmd : Byte} {p : List Byte} {i : Instr} :
    decodeCommand c cmd p = .ok i ↔ ∃ k, Cmd.ofByte c cmd = some k ∧ k.lengthOk p ∧ k.parse p = i := by
  cases hk : Cmd.ofByte c cmd with
  | none => simp [decodeCommand, hk]
  | some k =>
    cases hn : k.fixedLen with
    | none => simp [decodeCommand, hk, hn, Cmd.lengthOk]
    | some n => by_cases hp : p.length = n <;> simp [decodeCommand, hk, hn, hp, Cmd.lengthOk]

theorem Cmd.lengthOk.of_fixedLen {k : Cmd} {p : List Byte} (h : k.fixedLen = some p.length) : k.lengthOk p :=
  fun _ hn => Option.some.inj (h.symm.trans hn)

/-- Every command instruction is what its command reads from its payload. -/
theorem command_parses {i : Instr} (h : i.space = .command) (c : Config) :
    ∃ k : Cmd, i.codeByte c = k.code c ∧ k.lengthOk i.operands ∧ k.parse i.operands = i := by
  cases i with
  | status => exact ⟨.status, rfl, .of_fixedLen rfl, rfl⟩
  | read r => exact ⟨.read, rfl, .of_fixedLen rfl, congrArg _ (ofBytes_toBytes r)⟩
  | write r => exact ⟨.write, rfl, .of_fixedLen rfl, congrArg _ (ofBytes_toBytes r)⟩
  | erase r => exact ⟨.erase, rfl, .of_fixedLen rfl, congrArg _ (ofBytes_toBytes r)⟩
  | cancel => exact ⟨.cancel, rfl, .of_fixedLen rfl, rfl⟩
  | pause => exact ⟨.pause, rfl, .of_fixedLen rfl, rfl⟩
  | resumeOp => exact ⟨.resumeOp, rfl, .of_fixedLen rfl, rfl⟩
  | setResume => exact ⟨.setResume, rfl, .of_fixedLen rfl, rfl⟩
  | powerCheck => exact ⟨.powerCheck, rfl, .of_fixedLen rfl, rfl⟩
  | select => exact ⟨.select, rfl, .of_fixedLen rfl, rfl⟩
  | redetect => exact ⟨.redetect, rfl, .of_fixedLen rfl, rfl⟩
  | exit => exact ⟨.exit, rfl, .of_fixedLen rfl, rfl⟩
  | data => exact ⟨.data, rfl, nofun, rfl⟩
  | _ => cases h

theorem space_parse (k : Cmd) (p : List Byte) : (k.parse p).space = .command := by cases k <;> rfl

theorem codeByte_parse (c : Config) (k : Cmd) (p : List Byte) : (k.parse p).codeByte c = k.code c := by cases k <;> rfl

/-- A command keeps every byte of a payload of its length. -/
theorem operands_parse {k : Cmd} {p : List Byte} (h : k.lengthOk p) : (k.parse p).operands = p := by
  cases k with
  | read | write | erase => exact toBytes_ofBytes (h 11 rfl)
  | setResume | select =>
    obtain ⟨b, rfl⟩ := List.length_eq_one_iff.1 (h 1 rfl)
    rfl
  | data => rfl
  | status | cancel | pause | resumeOp | powerCheck | redetect | exit => exact (List.length_eq_zero_iff.1 (h 0 rfl)).symm

theorem decodeCommand_operands {c : Config} {i : Instr} (hc : c.commandsDistinct = true) (h : i.space = .command) :
    decodeCommand c (i.codeByte c) i.operands = .ok i := by
  obtain ⟨k, hcode, hlen, hparse⟩ := command_parses h c
  exact decodeCommand_eq_ok_iff.2 ⟨k, hcode ▸ ofByte_code hc k, hlen, hparse⟩

theorem operands_of_decodeCommand {c : Config} {cmd : Byte} {p : List Byte} {i : Instr} (h : decodeCommand c cmd p = .ok i) :
    i.space = .command ∧ i.codeByte c = cmd ∧ i.operands = p := by
  obtain ⟨k, hk, hlen, rfl⟩ := decodeCommand_eq_ok_iff.1 h
  exact ⟨space_parse k p, (codeByte_parse c k p).trans (code_of_ofByte hk), operands_parse hlen⟩

/-! ## Responses (R94, R104 to R111) -/

/-- The five bytes of `RSP_COMPLETE` (R107): the kind, then the count. -/
theorem getD_cons_slice {p : List Byte} (h : p.length = 5) : p.getD 0 0 :: slice p 1 5 = p := by
  match p, h with
  | [_, _, _, _, _], _ => rfl

/-- The nine bytes of `RSP_PROGRESS` (R106): the percentage, then the two counts. -/
theorem getD_cons_slices {p : List Byte} (h : p.length = 9) : p.getD 0 0 :: (slice p 1 5 ++ slice p 5 9) = p := by
  match p, h with
  | [_, _, _, _, _, _, _, _, _], _ => rfl

theorem slice_length {p : List Byte} {i j : Nat} (h : j ≤ p.length) : (slice p i j).length = j - i := by
  simp only [slice, List.length_take, List.length_drop]; omega

theorem slice_le32_append (x : Byte) (v : U32) (r : List Byte) : slice (x :: (le32 v ++ r)) 1 5 = le32 v := by
  simp [slice, List.take_left']

theorem slice_append_le32 (x : Byte) (v w : U32) : slice (x :: (le32 v ++ le32 w)) 5 9 = le32 w := by
  simp [slice, List.drop_left', List.take_of_length_le]

theorem decodeResponse_operands {c : Config} {i : Instr} (hc : c.responsesDistinct = true) (h : i.space = .response) :
    decodeResponse c (i.codeByte c) i.operands = .ok i := by
  simp only [Config.responsesDistinct, decide_eq_true_eq, List.nodup_cons, List.mem_cons, not_or, List.not_mem_nil] at hc
  cases i with
  | rspAck | rspModel | rspFailed | rspListStart | rspListEntry | rspListEnd | rspData =>
    simp [decodeResponse, Instr.codeByte, Instr.operands, hc, eq_comm]
  | rspProgress p d t =>
    simp [decodeResponse, Instr.codeByte, Instr.operands, hc, eq_comm, slice_le32_append, slice_append_le32, ofNat_unLe_le32]
  | rspComplete k n =>
    have hn : slice (k :: le32 n) 1 5 = le32 n := by simpa using slice_le32_append k n []
    simp [decodeResponse, Instr.codeByte, Instr.operands, hc, eq_comm, hn, ofNat_unLe_le32]
  | rspPower mv low =>
    obtain ⟨m0, m1, hmv⟩ : ∃ m0 m1, le16 mv = [m0, m1] := ⟨_, _, rfl⟩
    have hm : BitVec.ofNat 16 (unLe [m0, m1]) = mv := hmv ▸ ofNat_unLe_le16 mv
    cases low <;> simp [decodeResponse, Instr.codeByte, Instr.operands, hc, eq_comm, hmv, hm]
  | _ => cases h

theorem operands_of_decodeResponse {c : Config} {cmd : Byte} {p : List Byte} {i : Instr}
    (h : decodeResponse c cmd p = .ok i) : i.space = .response ∧ i.codeByte c = cmd ∧ i.operands = p := by
  unfold decodeResponse at h
  split_ifs at h with hack hmodel hprogress hlen hcomplete hlen hfailed hpower hstart hentry hend hdata
  · split at h <;> cases h
    exact ⟨rfl, hack.symm, rfl⟩
  · split at h <;> cases h
    exact ⟨rfl, hmodel.symm, rfl⟩
  · cases h
    refine ⟨rfl, hprogress.symm, ?_⟩
    rw [Instr.operands, le32_ofNat_unLe (slice_length (by omega)), le32_ofNat_unLe (slice_length (by omega)),
      getD_cons_slices hlen]
  · cases h
    refine ⟨rfl, hcomplete.symm, ?_⟩
    rw [Instr.operands, le32_ofNat_unLe (slice_length (by omega)), getD_cons_slice hlen]
  · split at h <;> cases h
    exact ⟨rfl, hfailed.symm, rfl⟩
  · split at h
    next m0 m1 low =>
      have hmv : le16 (BitVec.ofNat 16 (unLe [m0, m1])) = [m0, m1] := le16_ofNat_unLe rfl
      split_ifs at h with hlow hlow <;> cases h
      all_goals exact ⟨rfl, hpower.symm, by rw [Instr.operands, hmv, hlow]; rfl⟩
    · cases h
  · split at h <;> cases h
    exact ⟨rfl, hstart.symm, rfl⟩
  · split at h <;> cases h
    exact ⟨rfl, hentry.symm, rfl⟩
  · split at h <;> cases h
    exact ⟨rfl, hend.symm, rfl⟩
  · cases h
    exact ⟨rfl, hdata.symm, rfl⟩

/-! ## Stream units (R113, R114) -/

theorem decodeUnitForm_operands {c : Config} {i : Instr} (h : i.space = .unit) (hwf : i.wf c = true) :
    decodeUnitForm (i.codeByte c :: i.operands) = .ok i := by
  cases i with
  | unitRaw => rfl
  | unitBlank => rfl
  | unitRle ts =>
    simp only [Instr.wf, Bool.and_eq_true, decide_eq_true_eq, List.all_eq_true] at hwf
    obtain ⟨hne, hcount⟩ := hwf
    simp only [decodeUnitForm, Instr.codeByte, Instr.operands, tokensOfBytes_bytesOfTokens]
    simpa [hne] using hcount
  | _ => cases h

theorem operands_of_decodeUnitForm {bytes : List Byte} {i : Instr} (c : Config) (h : decodeUnitForm bytes = .ok i) :
    i.space = .unit ∧ i.wf c = true ∧ i.codeByte c :: i.operands = bytes := by
  unfold decodeUnitForm at h
  split at h
  · cases h
  next tag body =>
    split_ifs at h with hraw hrle hblank
    · cases h
      exact ⟨rfl, rfl, by rw [hraw]; rfl⟩
    · split at h
      next ts hts =>
        split at h
        · cases h
        next hgood =>
          cases h
          have hbody := bytesOfTokens_of_tokensOfBytes _ body le_rfl ts hts
          refine ⟨rfl, ?_, by rw [hrle, ← hbody]; rfl⟩
          simpa [Instr.wf] using hgood
      · cases h
    · split at h
      · cases h
        exact ⟨rfl, rfl, by rw [hblank]; rfl⟩
      · cases h

/-! ## The NAND bus (R118, R62) -/

theorem decodeBus_operands {c : Config} {i : Instr} (hc : c.opcodesDistinct = true) (h : i.space = .bus) (hwf : i.wf c = true) :
    decodeBus c (i.codeByte c :: i.operands) = .ok i := by
  simp only [Config.opcodesDistinct, decide_eq_true_eq, List.nodup_cons, List.mem_cons, not_or, List.not_mem_nil] at hc
  cases i with
  | opProgConfirm | opEraseConfirm | opReadStatus | opReadId | opReset =>
    simp [decodeBus, Instr.codeByte, Instr.operands, hc, eq_comm]
  | opReadSetup | opProgSetup | opEraseSetup =>
    have hlen := of_decide_eq_true hwf
    simp [decodeBus, Instr.codeByte, Instr.operands, hc, eq_comm, hlen]
  | opReadConfirm n =>
    obtain ⟨n0, n1, hn⟩ : ∃ n0 n1, le16 n = [n0, n1] := ⟨_, _, rfl⟩
    have hm : BitVec.ofNat 16 (unLe [n0, n1]) = n := hn ▸ ofNat_unLe_le16 n
    simp [decodeBus, Instr.codeByte, Instr.operands, hc, eq_comm, hn, hm]
  | _ => cases h

theorem operands_of_decodeBus {c : Config} {bytes : List Byte} {i : Instr} (h : decodeBus c bytes = .ok i) :
    i.space = .bus ∧ i.wf c = true ∧ i.codeByte c :: i.operands = bytes := by
  unfold decodeBus at h
  split at h
  · cases h
  next op rest =>
    split_ifs at h with hread hlen hconfirm hprog hlen hprogConfirm hnil herase hlen heraseConfirm hnil hstatus hnil hid hzero
      hreset hnil
    · cases h
      exact ⟨rfl, decide_eq_true hlen, by rw [hread]; rfl⟩
    · split at h <;> cases h
      next n0 n1 => exact ⟨rfl, rfl, by rw [Instr.operands, le16_ofNat_unLe rfl, hconfirm]; rfl⟩
    · cases h
      refine ⟨rfl, decide_eq_true (by rw [List.length_take, Nat.min_eq_left hlen]), ?_⟩
      rw [Instr.operands, List.take_append_drop, hprog]; rfl
    · cases h
      exact ⟨rfl, rfl, by rw [hprogConfirm, hnil]; rfl⟩
    · cases h
      exact ⟨rfl, decide_eq_true hlen, by rw [herase]; rfl⟩
    · cases h
      exact ⟨rfl, rfl, by rw [heraseConfirm, hnil]; rfl⟩
    · cases h
      exact ⟨rfl, rfl, by rw [hstatus, hnil]; rfl⟩
    · cases h
      exact ⟨rfl, rfl, by rw [hid, hzero]; rfl⟩
    · cases h
      exact ⟨rfl, rfl, by rw [hreset, hnil]; rfl⟩

/-! ## The round trips -/

/-- Settles O2: the frame reads back whole, and each space's decoder reads back code byte and operands. -/
theorem decodeOfEncodeIsTheInstruction : Obligations.DecodeOfEncodeIsTheInstruction := by
  intro c i hc hwf
  simp only [Config.codesDistinct, Bool.and_eq_true] at hc
  obtain ⟨⟨hcommands, hresponses⟩, hopcodes⟩ := hc
  cases hsp : i.space with
  | command =>
    simp only [decode, decodeFrame_encode (.inl hsp) hwf]
    exact decodeCommand_operands hcommands hsp
  | response =>
    simp only [decode, decodeFrame_encode (.inr hsp) hwf]
    exact decodeResponse_operands hresponses hsp
  | unit =>
    rw [encode_of_not_framed (.inl hsp)]
    exact decodeUnitForm_operands hsp hwf
  | bus =>
    rw [encode_of_not_framed (.inr hsp)]
    exact decodeBus_operands hopcodes hsp hwf

/-- Settles O3: each space's decoder accepts only the code byte and operands of what it answers. -/
theorem encodeOfDecodeIsTheWord : Obligations.EncodeOfDecodeIsTheWord := by
  intro c sp bytes i h
  cases sp with
  | command =>
    simp only [decode] at h
    split at h
    · cases h
    next cmd p hf =>
      obtain ⟨hsp, rfl, rfl⟩ := operands_of_decodeCommand h
      exact ⟨hsp, wf_and_encode_of_decodeFrame (.inl hsp) hf⟩
  | response =>
    simp only [decode] at h
    split at h
    · cases h
    next cmd p hf =>
      obtain ⟨hsp, rfl, rfl⟩ := operands_of_decodeResponse h
      exact ⟨hsp, wf_and_encode_of_decodeFrame (.inr hsp) hf⟩
  | unit =>
    obtain ⟨hsp, hwf, rfl⟩ := operands_of_decodeUnitForm c h
    exact ⟨hsp, hwf, encode_of_not_framed (.inl hsp) c⟩
  | bus =>
    obtain ⟨hsp, hwf, rfl⟩ := operands_of_decodeBus h
    exact ⟨hsp, hwf, encode_of_not_framed (.inr hsp) c⟩

/-- Settles O1: each word is the encoding of the instruction named, worked out byte by byte, and so decodes to it. -/
theorem writtenOutWordsDecode : Obligations.WrittenOutWordsDecode := by
  have decodes {i : Instr} {w : List Byte} (hw : encode Config.default i = w) (hwf : i.wf Config.default = true) :
      decode Config.default i.space w = .ok i :=
    hw ▸ decodeOfEncodeIsTheInstruction Config.default i (by decide) hwf
  exact ⟨decodes (i := .setResume 0x01) (by decide) (by decide), decodes (i := .read ⟨0x03, 1, 1, 3⟩) (by decide) (by decide),
    decodes (i := .rspPower 2800 true) (by decide) (by decide),
    decodes (i := .unitRle [⟨0x09, 0x02⟩, ⟨0x08, 0x02⟩]) (by decide) (by decide),
    decodes (i := .opEraseSetup [0x06, 0x00, 0x00]) (by decide) (by decide)⟩

end Sys2Proof
end

section
/-! SUPPORT. A frame byte by byte through the decoder (spec/40_frame_codec.md R146 to R148), and the ten responses as frames. -/

namespace Sys2Proof.Machine

/-! ## The parts of a frame (R146) -/

/-- Marker, `CMD` and a `LEN` within `MAX_PAYLOAD` pass without an answer. -/
theorem rxBytes_header {c : Config} {d : Decoder} {cmd : Byte} {n : Nat} (hs : d.rxState = .hunt0) (hmax : n ≤ c.maxPayload)
    (hn : n < 2 ^ 32) :
    rxBytes c d (c.magic0 :: c.magic1 :: cmd :: leBytes 4 n) =
      (List.replicate 7 .none,
        { rxState := if n = 0 then .ck0 else .payload, rxBody := cmd :: leBytes 4 n, rxLen := BitVec.ofNat 32 n, rxCk := 0 }) := by
  obtain ⟨l0, l1, l2, l3, hl⟩ : ∃ l0 l1 l2 l3, leBytes 4 n = [l0, l1, l2, l3] := ⟨_, _, _, _, rfl⟩
  have hu : unLe [l0, l1, l2, l3] = n := by rw [← hl, unLe_leBytes_of_lt (by omega)]
  simp [hl, rxBytes, rxByte, hs, rxLength, slice, hu, Nat.not_lt.2 hmax, List.replicate_succ]

/-- Four checksum bytes end the frame: it is answered if they are the checksum of the body. -/
theorem rxBytes_checksum (c : Config) {d : Decoder} (v : U32) (hs : d.rxState = .ck0) :
    rxBytes c d (le32 v) =
      (List.replicate 3 .none ++ [(rxFinish c d v).1], (rxFinish c d v).2) := by
  obtain ⟨b0, b1, b2, b3, hb⟩ : ∃ b0 b1 b2 b3, le32 v = [b0, b1, b2, b3] := ⟨_, _, _, _, rfl⟩
  have hv : BitVec.ofNat 32 b0.toNat + BitVec.ofNat 32 (256 * b1.toNat) + BitVec.ofNat 32 (65536 * b2.toNat) +
      BitVec.ofNat 32 (16777216 * b3.toNat) = v := by
    rw [← ofNat_unLe_le32 v, hb]
    simp only [unLe, ← BitVec.ofNat_add]
    congr 1
    omega
  simp only [hb, rxBytes, rxByte, hs, rxFinish, hv]
  rfl

/-- The body of a frame, up to its checksum, passes without an answer. -/
theorem rxBytes_body {c : Config} {d : Decoder} {cmd : Byte} {p : List Byte} (hs : d.rxState = .hunt0)
    (hmax : p.length ≤ c.maxPayload) (hp : p.length < 2 ^ 32) :
    rxBytes c d ([c.magic0, c.magic1] ++ frameBody cmd p) =
      (List.replicate (7 + p.length) .none,
        { rxState := .ck0, rxBody := frameBody cmd p, rxLen := BitVec.ofNat 32 p.length, rxCk := 0 }) := by
  have hsplit : [c.magic0, c.magic1] ++ frameBody cmd p = (c.magic0 :: c.magic1 :: cmd :: leBytes 4 p.length) ++ p := rfl
  rw [hsplit, rxBytes_append, rxBytes_header hs hmax hp]
  by_cases hnil : p = []
  · subst hnil
    simp [rxBytes, frameBody]
  · have hlen : p.length ≠ 0 := by simpa using hnil
    rw [rxBytes_payload c p _ (by simp [hlen]) (by simp; omega) hnil]
    simp [frameBody, List.replicate_add]

/-- A decoder in `HUNT0` answers a frame within `MAX_PAYLOAD` at its last byte, and nothing before (R142, R146 to R148). -/
theorem rxBytes_encodeFrame {c : Config} {d : Decoder} {cmd : Byte} {p : List Byte} (hs : d.rxState = .hunt0)
    (hmax : p.length ≤ c.maxPayload) (hp : p.length < 2 ^ 32) :
    rxBytes c d (encodeFrame c cmd p) =
      (List.replicate (10 + p.length) .none ++ [.frame cmd p],
        { rxState := .hunt0, rxBody := frameBody cmd p, rxLen := BitVec.ofNat 32 p.length
          rxCk := checksum32 c (frameBody cmd p) }) := by
  have hpayload : slice (frameBody cmd p) 5 (5 + p.length) = p := by simp [slice, frameBody, leBytes]
  have hlen : (BitVec.ofNat 32 p.length).toNat = p.length := by
    rw [BitVec.toNat_ofNat, Nat.mod_eq_of_lt hp]
  have hcount : 10 + p.length = (7 + p.length) + 3 := by omega
  rw [encodeFrame, rxBytes_append, rxBytes_body hs hmax hp, rxBytes_checksum c _ rfl, hcount]
  simp only [rxFinish, hlen, hpayload, if_true, List.replicate_add, List.append_assoc]
  rfl

/-! ## Responses (R94, R104 to R111) -/

/-- The engine executes a response by emitting it (notes/assumptions/14.md). -/
theorem exec_response {i : Instr} (s : State) (h : i.space = .response) : exec i s = .next (emit i s) := by
  cases i with
  | rspAck | rspModel | rspProgress | rspComplete | rspFailed | rspPower | rspListStart | rspListEntry | rspListEnd | rspData =>
    rfl
  | _ => cases h

/-- A well-formed response is read back from the frame it appends. -/
theorem response_frame_reads_back {i : Instr} (s : State) (h : i.space = .response) :
    exec i s = .next { s with tx := s.tx ++ encodeFrame s.cfg (i.codeByte s.cfg) i.operands } ∧
      ∀ d : Decoder, d.rxState = .hunt0 → i.wf s.cfg = true →
        (rxBytes s.cfg d (encodeFrame s.cfg (i.codeByte s.cfg) i.operands)).1.getLast? =
          some (.frame (i.codeByte s.cfg) i.operands) := by
  refine ⟨by rw [exec_response s h, emit, encode_of_framed (.inr h)], fun d hs hwf => ?_⟩
  obtain ⟨hmax, hlen⟩ := (wf_iff_operands_fit (.inr h) s.cfg).1 hwf
  rw [rxBytes_encodeFrame hs hmax hlen, List.getLast?_concat]

/-- Settles O44: the code and payload of R104 to R111 are the code byte and operands of the response. -/
theorem responsesAppendTheirFrames : Obligations.ResponsesAppendTheirFrames := by
  rintro i code payload s d (⟨_, _, rfl, rfl, rfl⟩ | ⟨rfl, rfl, rfl⟩ | ⟨_, _, rfl, rfl, rfl⟩ | ⟨_, _, _, rfl, rfl, rfl⟩ |
    ⟨_, _, rfl, rfl, rfl⟩ | ⟨_, _, rfl, rfl, rfl⟩ | ⟨_, _, rfl, rfl, rfl⟩ | ⟨_, rfl, rfl, rfl⟩ | ⟨_, _, rfl, rfl, rfl⟩ |
    ⟨_, rfl, rfl, rfl⟩)
  all_goals exact ⟨(response_frame_reads_back s rfl).1, (response_frame_reads_back s rfl).2 d⟩

end Sys2Proof.Machine
end

section
/-! SUPPORT. Which frames and stream units are refused whatever the state (spec/46_sequencer.md R274, spec/30_encoding.md R95,
R115). -/

namespace Sys2Proof.Machine

/-! ## The code check and the length check (R274) -/

theorem cmd_mem_all (k : Cmd) : k ∈ Cmd.all := by cases k <;> decide

/-- A byte names no command exactly when it is the code of none. -/
theorem ofByte_eq_none_iff {c : Config} {b : Byte} : Cmd.ofByte c b = none ↔ ∀ k : Cmd, b ≠ k.code c := by
  simp [Cmd.ofByte, List.find?_eq_none, cmd_mem_all, eq_comm (a := b)]

/-- An unknown code is answered with one `RSP_FAILED` and nothing else (R95, spec/60_exceptions.md R364). -/
theorem dispatchFrame_unknown {cmd : Byte} {s : State} (p : List Byte) (h : ∀ k : Cmd, cmd ≠ k.code s.cfg) :
    dispatchFrame cmd p s = .next { s with tx := s.tx ++ failedFrame s.cfg 0x03 cmd } := by
  simp only [dispatchFrame, decodeCommand, ofByte_eq_none_iff.2 h]
  rfl

/-- So is a known code with another length than R93 gives. -/
theorem dispatchFrame_of_length_ne {p : List Byte} {s : State} (hc : s.cfg.commandsDistinct = true) (k : Cmd) {n : Nat}
    (hn : k.fixedLen = some n) (hp : p.length ≠ n) :
    dispatchFrame (k.code s.cfg) p s = .next { s with tx := s.tx ++ failedFrame s.cfg 0x06 (k.code s.cfg) } := by
  simp only [dispatchFrame, decodeCommand, ofByte_code hc k, hn, if_neg hp]
  rfl

theorem dispatchFrame_of_lengthOk {p : List Byte} {s : State} (hc : s.cfg.commandsDistinct = true) {k : Cmd}
    (hp : k.lengthOk p) : dispatchFrame (k.code s.cfg) p s = exec (k.parse p) s := by
  simp only [dispatchFrame, decodeCommand_eq_ok_iff.2 ⟨k, ofByte_code hc k, hp, rfl⟩]

/-- The codes of R93 are `0x01` to `0x0C` and `0x10`. -/
theorem default_code_bounds {c : Config} (h : c.commands = CommandCodes.default) (k : Cmd) :
    1 ≤ (k.code c).toNat ∧ (k.code c).toNat ≤ 0x0C ∨ (k.code c).toNat = 0x10 := by
  cases k <;> simp [Cmd.code, h, CommandCodes.default]

/-! ## Malformed stream units (R115) -/

/-- Run tokens that decode to a unit have no zero count and total its size (R226). -/
theorem rleDecode_bytesOfTokens_eq_some {u : Nat} {out x : List Byte} {ts : List RunToken}
    (h : rleDecode u out (bytesOfTokens ts) = some x) :
    (∀ t ∈ ts, t.count ≠ 0) ∧ out.length + (ts.map (fun t => t.count.toNat)).sum = u := by
  induction ts generalizing out with
  | nil =>
    simp only [bytesOfTokens, rleDecode] at h
    split_ifs at h with hlen
    simpa using hlen
  | cons t r ih =>
    simp only [bytesOfTokens, rleDecode] at h
    split_ifs at h with hzero hover
    obtain ⟨hcount, hsum⟩ := ih h
    simp only [List.length_append, List.length_replicate] at hsum
    refine ⟨List.forall_mem_cons.2 ⟨hzero, hcount⟩, ?_⟩
    simp only [List.map_cons, List.sum_cons]
    omega

theorem decodeUnit_rle_eq_none {u : Nat} {ts : List RunToken}
    (h : (∃ t ∈ ts, t.count = 0) ∨ (ts.map (fun t => t.count.toNat)).sum ≠ u) :
    decodeUnit u (0x01 :: bytesOfTokens ts) = none := by
  have hrle : rleDecode u [] (bytesOfTokens ts) = none := by
    refine Option.eq_none_iff_forall_ne_some.2 fun x hx => ?_
    obtain ⟨hcount, hsum⟩ := rleDecode_bytesOfTokens_eq_some hx
    rcases h with ⟨t, ht, hzero⟩ | hne
    · exact hcount t ht hzero
    · exact hne (by simpa using hsum)
  simp [decodeUnit, hrle]

/-- Settles O40: no code, the wrong length, `DATA` of any length, and the malformed units of R115 in turn. -/
theorem dispatchChecksCodeThenLength : Obligations.DispatchChecksCodeThenLength := by
  intro cmd payload s
  refine ⟨dispatchFrame_unknown payload, fun hcodes hcmd => dispatchFrame_unknown payload fun k hk => ?_,
    fun hc => ⟨?_, dispatchFrame_of_lengthOk hc (k := .data) nofun⟩, fun u => ?_⟩
  · have hbounds := default_code_bounds hcodes k
    rw [← hk] at hbounds
    rcases hcmd with rfl | hcmd | hcmd
    · simp at hbounds
    all_goals omega
  · have badLength := @dispatchFrame_of_length_ne payload s hc
    rintro (⟨rfl | rfl | rfl, hlen⟩ | ⟨rfl | rfl, hlen⟩ | ⟨hcmd, hnil⟩)
    · exact badLength .read rfl hlen
    · exact badLength .write rfl hlen
    · exact badLength .erase rfl hlen
    · exact badLength .setResume rfl hlen
    · exact badLength .select rfl hlen
    · have hlen : payload.length ≠ 0 := List.length_eq_zero_iff.not.2 hnil
      rcases hcmd with rfl | rfl | rfl | rfl | rfl | rfl | rfl
      · exact badLength .status rfl hlen
      · exact badLength .cancel rfl hlen
      · exact badLength .pause rfl hlen
      · exact badLength .resumeOp rfl hlen
      · exact badLength .powerCheck rfl hlen
      · exact badLength .redetect rfl hlen
      · exact badLength .exit rfl hlen
  · rintro (rfl | ⟨tag, body, rfl, ⟨hraw, hrle, hblank⟩ | ⟨rfl, hlen⟩ | ⟨rfl, hbody⟩ | ⟨rfl, rfl | hodd | ⟨ts, rfl, hts⟩⟩⟩)
    · rfl
    · simp only [decodeUnit, if_neg hraw, if_neg hrle, if_neg hblank]
    · simp [decodeUnit, hlen]
    · simp [decodeUnit, hbody]
    · rfl
    · simp [decodeUnit, hodd]
    · exact decodeUnit_rle_eq_none hts

end Sys2Proof.Machine
end

section
/-! SUPPORT. The byte-serial decoder on whole, damaged, over-long and missing frames (spec/40_frame_codec.md R149, R150, R154,
R155). -/

namespace Sys2Proof.Machine

/-! ## A whole frame (R154) -/

/-- Settles O4. -/
theorem frameRoundTripByteByByte : Obligations.FrameRoundTripByteByByte := by
  intro c d cmd payload hs hmax hlen
  rw [rxBytes_encodeFrame hs hmax hlen]
  exact ⟨rfl, rfl⟩

/-! ## A frame with a wrong checksum (R147, R155) -/

/-- The four bytes after a body that are not its checksum end the frame with `FrameError(Checksum)`. -/
theorem rxBytes_wrong_checksum {c : Config} {d : Decoder} {cmd : Byte} {p ck : List Byte} (hs : d.rxState = .hunt0)
    (hmax : p.length ≤ c.maxPayload) (hp : p.length < 2 ^ 32) (hck : ck.length = 4)
    (hne : ck ≠ le32 (checksum32 c (frameBody cmd p))) :
    (rxBytes c d ([c.magic0, c.magic1] ++ frameBody cmd p ++ ck)).1 =
        List.replicate (10 + p.length) .none ++ [.errChecksum] ∧
      (rxBytes c d ([c.magic0, c.magic1] ++ frameBody cmd p ++ ck)).2.rxState = .hunt0 := by
  obtain ⟨v, rfl⟩ : ∃ v, ck = le32 v := ⟨_, (le32_ofNat_unLe hck).symm⟩
  have hv : v ≠ checksum32 c (frameBody cmd p) := fun h => hne (h ▸ rfl)
  have hcount : 10 + p.length = (7 + p.length) + 3 := by omega
  rw [rxBytes_append, rxBytes_body hs hmax hp, rxBytes_checksum c v rfl, hcount]
  simp only [rxFinish, if_neg hv, List.replicate_add, List.append_assoc, and_self]

/-- Replacing a byte moves the byte sum by the difference of the two bytes. -/
theorem byteSum_set {l : List Byte} {k : Nat} (hk : k < l.length) (b : Byte) :
    byteSum (l.set k b) + l[k].toNat = byteSum l + b.toNat := by
  induction l generalizing k with
  | nil => cases hk
  | cons a r ih =>
    cases k with
    | zero => simp only [List.set_cons_zero, List.getElem_cons_zero, byteSum]; omega
    | succ k =>
      have htail := ih (Nat.lt_of_succ_lt_succ hk)
      simp only [List.set_cons_succ, List.getElem_cons_succ, byteSum]
      omega

/-- The byte sum tells a sequence from the one with a byte changed: two bytes differ by less than 2^32. -/
theorem checksum32_set_ne {c : Config} {l : List Byte} {k : Nat} {b : Byte} (hc : c.checksum = .byteSum)
    (hk : k < l.length) (hb : l[k]? ≠ some b) : checksum32 c (l.set k b) ≠ checksum32 c l := by
  intro h
  have hsum := byteSum_set hk b
  have hmod := congrArg BitVec.toNat h
  simp only [checksum32, hc, BitVec.toNat_ofNat] at hmod
  have hold := l[k].isLt
  have hnew := b.isLt
  have hsame : l[k] = b := BitVec.eq_of_toNat_eq (by omega)
  exact hb (by rw [List.getElem?_eq_getElem hk, hsame])

theorem le32_injective {v w : U32} (h : le32 v = le32 w) : v = w := by
  rw [← ofNat_unLe_le32 v, h, ofNat_unLe_le32]

/-- A body with its `CMD` byte or a payload byte replaced is the body of another frame of the same length. -/
theorem frameBody_set (cmd : Byte) (p : List Byte) {k : Nat} (hk : k = 0 ∨ 5 ≤ k) (b : Byte) :
    ∃ cmd' p', (frameBody cmd p).set k b = frameBody cmd' p' ∧ p'.length = p.length := by
  rcases hk with rfl | hk
  · exact ⟨b, p, rfl, rfl⟩
  · obtain ⟨i, rfl⟩ := Nat.exists_eq_add_of_le' hk
    exact ⟨cmd, p.set i b, by simp [frameBody, leBytes], List.length_set⟩

/-- Settles O5: a changed `CMD` or payload byte moves the checksum of the body away from the one sent, and a changed
`CHECKSUM` byte the one sent away from that of the body. -/
theorem changedByteFailsTheChecksum : Obligations.ChangedByteFailsTheChecksum := by
  intro c d cmd payload j b hs hmax hlen hj hjlt hb
  by_cases hbody : j < 7 + payload.length
  · obtain ⟨hc, hj⟩ : c.checksum = .byteSum ∧ (j = 2 ∨ 7 ≤ j) := hj.resolve_right (by omega)
    obtain ⟨k, rfl⟩ : ∃ k, j = k + 2 := Nat.exists_eq_add_of_le' (by omega)
    have hk : k < (frameBody cmd payload).length := by rw [frameBody_length]; omega
    have hold : (frameBody cmd payload)[k]? ≠ some b := by
      simpa [encodeFrame, List.getElem?_append_left hk] using hb
    obtain ⟨cmd', p', hset, hp'⟩ := frameBody_set cmd payload (k := k) (by omega) b
    have hframe : (encodeFrame c cmd payload).set (k + 2) b =
        [c.magic0, c.magic1] ++ frameBody cmd' p' ++ le32 (checksum32 c (frameBody cmd payload)) := by
      simp [encodeFrame, List.set_append_left _ _ hk, hset]
    have hne := checksum32_set_ne hc hk hold
    rw [hset] at hne
    rw [hframe, ← hp']
    exact rxBytes_wrong_checksum hs (hp' ▸ hmax) (hp' ▸ hlen) (le32_length _) fun h => hne (le32_injective h).symm
  · obtain ⟨k, rfl⟩ := Nat.exists_eq_add_of_le (Nat.le_of_not_lt hbody)
    have hprefix : ([c.magic0, c.magic1] ++ frameBody cmd payload).length = 7 + payload.length := by simp; omega
    have hframe : (encodeFrame c cmd payload).set (7 + payload.length + k) b =
        [c.magic0, c.magic1] ++ frameBody cmd payload ++ (le32 (checksum32 c (frameBody cmd payload))).set k b := by
      rw [encodeFrame, ← hprefix, List.set_append_right _ _ (Nat.le_add_right _ _), Nat.add_sub_cancel_left]
    have hold : (le32 (checksum32 c (frameBody cmd payload)))[k]? ≠ some b := by
      rwa [encodeFrame, ← hprefix, List.getElem?_append_right (Nat.le_add_right _ _), Nat.add_sub_cancel_left] at hb
    rw [hframe]
    refine rxBytes_wrong_checksum hs hmax hlen (by simp) fun h => hold ?_
    rw [← h, List.getElem?_set_self (by rw [le32_length]; omega)]

/-! ## A length above `MAX_PAYLOAD` (R149) -/

/-- From `HUNT0`, the marker, `CMD` and the first three `LEN` bytes lead to `LEN3`; the fourth `LEN` byte is refused. -/
theorem rxBytes_length_above {c : Config} {d : Decoder} (hs : d.rxState = .hunt0) {cmd l0 l1 l2 l3 : Byte}
    (h : c.maxPayload < unLe [l0, l1, l2, l3]) :
    rxBytes c d [c.magic0, c.magic1, cmd, l0, l1, l2, l3] =
      (List.replicate 6 .none ++ [.errLength],
        { d with
          rxState := .hunt0, rxBody := [cmd, l0, l1, l2, l3], rxLen := BitVec.ofNat 32 (unLe [l0, l1, l2, l3]) }) := by
  simp [rxBytes, rxByte, hs, rxLength, slice, h, List.replicate_succ]

/-! ## Noise in the hunt (R150) -/

/-- No marker stands in the bytes. -/
def NoMarker (c : Config) (bytes : List Byte) : Prop :=
  ∀ i, ¬(bytes[i]? = some c.magic0 ∧ bytes[i + 1]? = some c.magic1)

theorem NoMarker.tail {c : Config} {b : Byte} {r : List Byte} (h : NoMarker c (b :: r)) : NoMarker c r :=
  fun i hi => h (i + 1) hi

/-- The bytes to come complete no marker, in `HUNT1` not the one whose first byte has arrived either. -/
def HuntsNoise (c : Config) (bytes : List Byte) : RxState → Prop
  | .hunt0 => NoMarker c bytes
  | .hunt1 => NoMarker c (c.magic0 :: bytes)
  | _ => False

/-- The hunt drops a byte that completes no marker and goes on hunting. -/
theorem rxByte_noise {c : Config} {b : Byte} {r : List Byte} {st : RxState} (d : Decoder) (h : HuntsNoise c (b :: r) st) :
    ∃ st', rxByte c { d with rxState := st } b = (.none, { d with rxState := st' }) ∧ HuntsNoise c r st' := by
  cases st
  case hunt0 =>
    by_cases h0 : b = c.magic0
    · subst h0
      exact ⟨.hunt1, by simp [rxByte], h⟩
    · exact ⟨.hunt0, by simp [rxByte, h0], NoMarker.tail h⟩
  case hunt1 =>
    have h1 : b ≠ c.magic1 := fun hb => h 0 ⟨rfl, congrArg some hb⟩
    have hrest : NoMarker c (b :: r) := NoMarker.tail h
    by_cases h0 : b = c.magic0
    · subst h0
      exact ⟨.hunt1, by simp [rxByte, h1], hrest⟩
    · exact ⟨.hunt0, by simp [rxByte, h1, h0], hrest.tail⟩
  all_goals exact False.elim h

/-- Bytes without a marker are dropped in the hunt: no answer, and no register but `RX_STATE` written. -/
theorem rxBytes_noise {c : Config} {bytes : List Byte} {st : RxState} (d : Decoder) (h : HuntsNoise c bytes st) :
    ∃ st', rxBytes c { d with rxState := st } bytes =
        (List.replicate bytes.length .none, { d with rxState := st' }) ∧ HuntsNoise c [] st' := by
  induction bytes generalizing st with
  | nil => exact ⟨st, rfl, h⟩
  | cons b r ih =>
    obtain ⟨st1, hstep, h1⟩ := rxByte_noise d h
    obtain ⟨st', hrest, h'⟩ := ih h1
    exact ⟨st', by simp only [rxBytes, hstep, hrest, List.length_cons, List.replicate_succ], h'⟩

/-- Settles O6. -/
theorem badLengthsAndNoiseAreDropped : Obligations.BadLengthsAndNoiseAreDropped := by
  intro c d hs
  refine ⟨fun cmd l0 l1 l2 l3 hover => ?_, fun bytes hnoise => ?_⟩
  · rw [rxBytes_length_above hs (by simp only [unLe]; omega)]
    exact ⟨rfl, rfl⟩
  · have hd : { d with rxState := .hunt0 } = d := by rw [← hs]
    obtain ⟨st', hrun, hst'⟩ := rxBytes_noise (st := .hunt0) d hnoise
    rw [hd] at hrun
    rw [hrun]
    refine ⟨rfl, ?_⟩
    cases st'
    case hunt0 => exact .inl hd
    case hunt1 => exact .inr rfl
    all_goals exact False.elim hst'

end Sys2Proof.Machine
end

section
/-! SUPPORT. The profile table: which entry `detect` answers, and what `SELECT` does (spec/41_chip_profile.md R171 to R173,
spec/48_commands.md R339). -/

namespace Sys2Proof.Machine

/-! ## The longest matching identifier (R171) -/

/-- No length is answered exactly when no entry's identifier starts `idb`. -/
theorem longestMatch_eq_none_iff {idb : List Byte} {l : List Profile} :
    longestMatch idb l = none ↔ ∀ p ∈ l, ¬p.id <+: idb := by
  induction l with
  | nil => simp [longestMatch]
  | cons p r ih => by_cases hp : p.id <+: idb <;> simp [longestMatch, hp, ih]

/-- The answered length is that of a matching entry, and no matching entry's identifier is longer. -/
theorem longestMatch_attained_bound {idb : List Byte} {l : List Profile} {n : Nat} (h : longestMatch idb l = some n) :
    (∃ p ∈ l, p.id <+: idb ∧ p.id.length = n) ∧ ∀ q ∈ l, q.id <+: idb → q.id.length ≤ n := by
  induction l generalizing n with
  | nil => cases h
  | cons p r ih =>
    by_cases hp : p.id <+: idb
    · cases hr : longestMatch idb r with
      | none =>
        have hn : p.id.length = n := by simpa [longestMatch, hp, hr] using h
        have hnone := longestMatch_eq_none_iff.1 hr
        exact ⟨⟨p, List.mem_cons_self, hp, hn⟩,
          List.forall_mem_cons.2 ⟨fun _ => hn.le, fun q hq hm => absurd hm (hnone q hq)⟩⟩
      | some m =>
        have hn : max p.id.length m = n := by simpa [longestMatch, hp, hr] using h
        obtain ⟨⟨q, hq, hm, hlen⟩, hle⟩ := ih hr
        refine ⟨?_, List.forall_mem_cons.2 ⟨fun _ => by omega, fun x hx hxm => (hle x hx hxm).trans (by omega)⟩⟩
        rcases le_total m p.id.length with hmp | hpm
        · exact ⟨p, List.mem_cons_self, hp, by omega⟩
        · exact ⟨q, List.mem_cons_of_mem p hq, hm, by omega⟩
    · obtain ⟨⟨q, hq, hm, hlen⟩, hle⟩ := ih (by simpa [longestMatch, hp] using h)
      exact ⟨⟨q, List.mem_cons_of_mem p hq, hm, hlen⟩, List.forall_mem_cons.2 ⟨fun hm => absurd hm hp, hle⟩⟩

/-- `longestMatch` is the maximum of the matching lengths. -/
theorem longestMatch_eq_some_iff {idb : List Byte} {l : List Profile} {n : Nat} :
    longestMatch idb l = some n ↔
      (∃ p ∈ l, p.id <+: idb ∧ p.id.length = n) ∧ ∀ q ∈ l, q.id <+: idb → q.id.length ≤ n := by
  refine ⟨longestMatch_attained_bound, fun ⟨⟨p, hp, hm, hlen⟩, hle⟩ => ?_⟩
  cases hr : longestMatch idb l with
  | none => exact absurd hm (longestMatch_eq_none_iff.1 hr p hp)
  | some m =>
    obtain ⟨⟨q, hq, hqm, hqlen⟩, hmax⟩ := longestMatch_attained_bound hr
    have hnm : n ≤ m := hlen ▸ hmax p hp hm
    have hmn : m ≤ n := hqlen ▸ hle q hq hqm
    rw [le_antisymm hmn hnm]

/-! ## `detect` (R171) -/

/-- `detect` answers the first entry among those with a matching identifier of the maximal length. -/
theorem detect_eq_some_iff {c : Config} {idb : List Byte} {i : Nat} :
    detect c idb = some i ↔
      ∃ p, c.profileTable[i]? = some p ∧ longestMatch idb c.profileTable = some p.id.length ∧ p.id <+: idb ∧
        ∀ j q, j < i → c.profileTable[j]? = some q → q.id <+: idb → q.id.length ≠ p.id.length := by
  cases hl : longestMatch idb c.profileTable with
  | none => simp [detect, hl]
  | some n =>
    simp only [detect, hl, List.findIdx?_eq_some_iff_getElem, Bool.and_eq_true, List.isPrefixOf_iff_prefix, beq_iff_eq,
      Option.some.injEq]
    constructor
    · rintro ⟨hi, ⟨hm, rfl⟩, hfirst⟩
      refine ⟨_, List.getElem?_eq_getElem hi, rfl, hm, fun j q hj hq hqm hlen => ?_⟩
      obtain ⟨_, rfl⟩ := List.getElem?_eq_some_iff.1 hq
      exact hfirst j hj ⟨hqm, hlen⟩
    · rintro ⟨p, hp, rfl, hm, hfirst⟩
      obtain ⟨hi, rfl⟩ := List.getElem?_eq_some_iff.1 hp
      exact ⟨hi, ⟨hm, rfl⟩, fun j hj ⟨hjm, hlen⟩ =>
        hfirst j _ hj (List.getElem?_eq_getElem (hj.trans hi)) hjm hlen⟩

/-- `detect` answers nothing exactly when no entry's identifier starts `idb`: the maximal length is some entry's. -/
theorem detect_eq_none_iff {c : Config} {idb : List Byte} :
    detect c idb = none ↔ ∀ p ∈ c.profileTable, ¬p.id <+: idb := by
  rw [← longestMatch_eq_none_iff]
  cases hl : longestMatch idb c.profileTable with
  | none => simp [detect, hl]
  | some n =>
    obtain ⟨⟨p, hp, hm, hlen⟩, -⟩ := longestMatch_eq_some_iff.1 hl
    simpa [detect, hl] using ⟨p, hp, hm, hlen⟩

/-- Settles O19: the order of R171, first by length and then by index, is the maximum and the first index that has it. -/
theorem detectTakesLongestThenLowest : Obligations.DetectTakesLongestThenLowest := by
  refine fun c idb => ⟨fun i => detect_eq_some_iff.trans (exists_congr fun p => ?_), detect_eq_none_iff⟩
  refine and_congr_right fun hp => ?_
  rw [longestMatch_eq_some_iff]
  constructor
  · rintro ⟨⟨-, hle⟩, hm, hfirst⟩
    exact ⟨hm, fun j q hq hqm => ⟨hle q (List.mem_of_getElem? hq) hqm,
      fun hlen => not_lt.1 fun hj => hfirst j q hj hq hqm hlen⟩⟩
  · rintro ⟨hm, hbest⟩
    refine ⟨⟨⟨p, List.mem_of_getElem? hp, hm, rfl⟩, fun q hq hqm => ?_⟩, hm, fun j q hj hq hqm hlen => ?_⟩
    · obtain ⟨j, hj⟩ := List.mem_iff_getElem?.1 hq
      exact (hbest j q hj hqm).1
    · exact absurd ((hbest j q hq hqm).2 hlen) (not_le.2 hj)

/-! ## `SELECT` (R172, R173, R339) -/

/-- In an idle-like state `SELECT` runs its handler (R332). -/
theorem exec_select {s : State} (index : Byte) (hi : idleLike s.seq = true) :
    exec (.select index) s = .next (onSelect index s) := by
  simp [exec, execSelect, accepted, accept, active_of_idleLike hi]

/-- An index of the table is held and its model answered. -/
theorem onSelect_of_entry {s : State} {index : Byte} {p : Profile} (h : s.cfg.profileTable[index.toNat]? = some p) :
    onSelect index s =
      { s with
        ses := { s.ses with profile := index }
        tx := s.tx ++ encodeFrame s.cfg s.cfg.responses.model (index :: p.name) } := by
  simp only [onSelect, selectProfile, h]
  rw [emit, encode_of_framed (.inr rfl)]
  rfl

/-- An index beyond the table is refused with the listing, and `PROFILE` stays. -/
theorem onSelect_of_length_le {s : State} {index : Byte} (h : s.cfg.profileTable.length ≤ index.toNat) :
    onSelect index s =
      { s with tx := s.tx ++ failedFrame s.cfg 0x15 s.cfg.commands.select ++ listingFrames s.cfg } := by
  simp only [onSelect, selectProfile, List.getElem?_eq_none h, rejectNoChip_eq]

/-- Settles O32. -/
theorem selectHoldsOrLists : Obligations.SelectHoldsOrLists := by
  intro s index hi
  rw [exec_select index hi]
  exact ⟨fun p hp => by rw [onSelect_of_entry hp], fun hlen => by rw [onSelect_of_length_le hlen]⟩

end Sys2Proof.Machine
end

section
/-! SUPPORT. The BusDriver (spec/42_bus_driver.md R182 to R201): the bounded retry, the nine bus opcodes where the held profile
and the die agree, and what autotune keeps. -/

namespace Sys2Proof.Machine

/-! ## The bounded retry (R199) -/

/-- An attempt that times out leaves the answer to the next one (R199). -/
theorem withBusRetry_of_timeout {α : Type} {txn : State → BusResult α × State} {s : State} (h : (txn s).1 = .timeout)
    (k : Nat) : withBusRetry txn (k + 1) s = withBusRetry txn k (txn s).2 := by
  simp only [withBusRetry, h]

/-- After `j` attempts that time out, an attempt that does not is the answer (R199). -/
theorem withBusRetry_of_first_answer {α : Type} {txn : State → BusResult α × State} {j k : Nat} {s : State} (hjk : j ≤ k)
    (hbefore : ∀ i, i < j → (txn ((fun t => (txn t).2)^[i] s)).1 = .timeout)
    (hfirst : (txn ((fun t => (txn t).2)^[j] s)).1 ≠ .timeout) :
    withBusRetry txn k s = txn ((fun t => (txn t).2)^[j] s) := by
  induction j generalizing k s with
  | zero => exact withBusRetry_of_first hfirst k
  | succ j ih =>
    obtain ⟨k, rfl⟩ : ∃ k', k = k' + 1 := ⟨k - 1, by omega⟩
    rw [withBusRetry_of_timeout (s := s) (hbefore 0 (by omega))]
    exact ih (by omega) (fun i hi => hbefore (i + 1) (by omega)) hfirst

/-- All `k + 1` attempts time out: so does the transaction (R199). -/
theorem withBusRetry_of_all_timeouts {α : Type} {txn : State → BusResult α × State} {k : Nat} {s : State}
    (hall : ∀ i, i ≤ k → (txn ((fun t => (txn t).2)^[i] s)).1 = .timeout) :
    withBusRetry txn k s = (.timeout, (fun t => (txn t).2)^[k + 1] s) := by
  induction k generalizing s with
  | zero => exact Prod.ext (hall 0 le_rfl) rfl
  | succ k ih =>
    rw [withBusRetry_of_timeout (s := s) (hall 0 (by omega))]
    exact ih fun i hi => hall (i + 1) (by omega)

/-- Settles O11, by induction on the attempts that time out. -/
theorem onlyTimeoutsAreRetried : Obligations.OnlyTimeoutsAreRetried :=
  fun _ _ _ _ =>
    ⟨fun _ hjk hbefore hfirst => withBusRetry_of_first_answer hjk hbefore hfirst, withBusRetry_of_all_timeouts⟩

/-! ## The setup opcodes (R196, R197, R187) -/

theorem busReadSetup_eq (addr : List Byte) (s : State) :
    busReadSetup addr s =
      { s with
        die := { s.die with latch := .read addr }, trace := s.trace ++ .cmd s.cfg.opReadSetup :: addr.map .addr } := by
  simp [busReadSetup, sendAddress, sendCommand, cycles, State.setLatch]

theorem busProgSetup_eq (addr bytes : List Byte) (s : State) :
    busProgSetup addr bytes s =
      { s with
        die := { s.die with latch := .prog addr bytes }
        trace := s.trace ++ .cmd s.cfg.opProgSetup :: (addr.map .addr ++ bytes.map .dataWr) } := by
  simp [busProgSetup, sendAddress, sendCommand, cycles, State.setLatch]

theorem busEraseSetup_eq (addr : List Byte) (s : State) :
    busEraseSetup addr s =
      { s with
        die := { s.die with latch := .erase addr }, trace := s.trace ++ .cmd s.cfg.opEraseSetup :: addr.map .addr } := by
  simp [busEraseSetup, sendAddress, sendCommand, cycles, State.setLatch]

/-- Settles O12: the three setup operations written out. -/
theorem setupOpcodesLatch : Obligations.SetupOpcodesLatch :=
  fun s addr bytes =>
    ⟨congrArg _ (busReadSetup_eq addr s), congrArg _ (busProgSetup_eq addr bytes s), congrArg _ (busEraseSetup_eq addr s)⟩

/-! ## Status, identifier and reset (R193, R194, R191) -/

/-- `NAND_ID` has its `ID_LEN` bytes (R66): no byte of an identifier read is drawn. -/
theorem idBytes_of_le {s : State} (h : s.cfg.idLen ≤ s.die.nandId.length) :
    idBytes s = (s.die.nandId.take s.cfg.idLen, s) := by
  simp [idBytes, Nat.sub_eq_zero_of_le h, drawBytes]

theorem busReadId_of_le {s : State} (h : s.cfg.idLen ≤ s.die.nandId.length) :
    busReadId s = (s.die.nandId.take s.cfg.idLen, idCycles (s.die.nandId.take s.cfg.idLen) s) := by
  simp only [busReadId, idBytes_of_le h]

/-- A reset sends its command, waits and empties the latch (R191). -/
theorem busReset_eq (s : State) :
    busReset s =
      (decide ((draw s).1 < s.cfg.readyTimeoutReset),
        { s with
          env := (draw s).2.env
          die := { s.die with latch := .idle }
          trace := s.trace ++ [.cmd s.cfg.opReset] ++ waitTrace (draw s).1 s.cfg.readyTimeoutReset }) := by
  have hw := @waitReady_congr s (sendCommand s.cfg.opReset s) s.cfg.readyTimeoutReset rfl
  simp only [busReset, hw]
  rfl

/-- Settles O16: with `ID_LEN` bytes of `NAND_ID` at hand nothing is drawn, and the reset draws its busy period. -/
theorem statusIdentifierAndReset : Obligations.StatusIdentifierAndReset := fun s =>
  ⟨rfl, fun hid => congrArg Host.Outcome.next (congrArg Prod.snd (busReadId_of_le hid)),
    congrArg Host.Outcome.next (congrArg Prod.snd (busReset_eq s))⟩

/-! ## The read confirm (R185, R67) -/

/-- The die drives the latched row's bytes, and nothing moves (R67). -/
theorem dieRead_spec {s : State} {p : Profile} {row n : Nat} (hc : s.cfg.ok = true) (h : RowOk p row s)
    (hn : n ≤ p.unitSize) : dieRead (.read (addrBytes s.cfg 0 row)) n s = (readRow s.die.arr row n, s) := by
  obtain ⟨-, -, -, -, hrows, -⟩ := Profile.ok_bounds (heldProfile_ok hc h.held)
  have hn' : n ≤ s.die.unitSize := h.geometry.1 ▸ hn
  have hrow := addrRow_addrBytes s.cfg 0 row (h.inRange.trans hrows)
  simp only [dieRead, h.pageAddrOk hc, hn', decide_true, Bool.and_self, if_true, hrow]

/-- The state of a read confirm whose wait has ended. -/
def readWaited (s : State) : State :=
  { s with
    env := (draw s).2.env
    die := { s.die with latch := .idle }
    trace := s.trace ++ [.cmd s.cfg.opReadConfirm] ++ waitTrace (draw s).1 s.cfg.readyTimeoutRead }

theorem busReadConfirm_eq (n : Nat) (s : State) :
    busReadConfirm n s =
      if (draw s).1 < s.cfg.readyTimeoutRead then
        (some (dieRead s.die.latch n (readWaited s)).1,
          cycles ((dieRead s.die.latch n (readWaited s)).1.map .dataRd) (dieRead s.die.latch n (readWaited s)).2)
      else (none, readWaited s) := by
  have hw := @waitReady_congr s (sendCommand s.cfg.opReadConfirm s) s.cfg.readyTimeoutRead rfl
  simp only [busReadConfirm, hw, decide_eq_true_eq]
  rfl

theorem RowOk.readWaited {p : Profile} {row : Nat} {s : State} (h : RowOk p row s) : RowOk p row (readWaited s) :=
  ⟨h.held, h.agrees, h.inRange⟩

/-- Settles O13: the die's read over the latched page, in the state whose wait has ended. -/
theorem readConfirmBringsTheRow : Obligations.ReadConfirmBringsTheRow := by
  intro s p row n hc hrow hn hl
  have hread : dieRead s.die.latch n.toNat (readWaited s) = (readRow s.die.arr row n.toNat, readWaited s) :=
    hl ▸ dieRead_spec (s := readWaited s) hc hrow.readWaited hn
  refine congrArg Host.Outcome.next ((congrArg Prod.snd (busReadConfirm_eq n.toNat s)).trans ?_)
  rw [hread]
  split
  · simp [readWaited, cycles, readRow, Function.comp_def]
  · simp [readWaited]

/-! ## The two confirms that change the array (R186, R187) -/

/-- A die ready in time shows bit 6 (R70, R120). -/
theorem statusAfter_ready_bit (d : Nat) : (statusAfter true d).getLsbD 6 = true := by
  simp [statusAfter]

/-- Whether a confirm with wait `T` succeeds: the die is ready in time, with bit 0 of its status clear. -/
def confirmPasses (T : Nat) (s : State) : Bool :=
  decide ((draw s).1 < T) && !(statusAfter (decide ((draw s).1 < T)) (draw (draw s).2).1).getLsbD 0

theorem confirmPasses_iff {T : Nat} {s : State} :
    confirmPasses T s = true ↔ (draw s).1 < T ∧ (draw (draw s).2).1 % 2 = 0 := by
  by_cases hready : (draw s).1 < T
  · simp only [confirmPasses, hready, decide_true, statusAfter_pass, Bool.true_and, true_and, Bool.not_eq_true',
      decide_eq_false_iff_not]
    omega
  · simp [confirmPasses, hready]

/-- What a confirm leaves that found rows `row` to `row + n - 1` of `u` bytes latched: `m` for the array after a success, torn
rows else. -/
def confirmOutcome (op : Byte) (T row n u : Nat) (m : Memory) (s : State) : State :=
  if confirmPasses T s then (confirmed op T s).setArr m else tearRows row n u (confirmed op T s)

/-- Passed or torn, a confirm moves the array's cells and spends the answers beyond the status byte, nothing else. -/
theorem confirmOutcome_keeps (op : Byte) (T row n u : Nat) (m : Memory) (s : State) :
    (confirmOutcome op T row n u m s).die =
        { (confirmed op T s).die with arr := (confirmOutcome op T row n u m s).die.arr } ∧
      (confirmOutcome op T row n u m s).trace = (confirmed op T s).trace := by
  unfold confirmOutcome
  split
  · exact ⟨rfl, rfl⟩
  · exact ⟨by rw [tearRows_frame], tearRows_trace _ _ _ _⟩

theorem confirmOutcome_latch (op : Byte) (T row n u : Nat) (m : Memory) (s : State) :
    (confirmOutcome op T row n u m s).die.latch = .idle := by
  rw [(confirmOutcome_keeps op T row n u m s).1]
  rfl

theorem confirmOutcome_trace (op : Byte) (T row n u : Nat) (m : Memory) (s : State) :
    (confirmOutcome op T row n u m s).trace = s.trace ++ [.cmd op] ++ waitTrace (draw s).1 T :=
  (confirmOutcome_keeps op T row n u m s).2

theorem confirmOutcome_status {op : Byte} {T : Nat} {s : State} (hready : (draw s).1 < T) (row n u : Nat) (m : Memory) :
    (confirmOutcome op T row n u m s).die.status.getLsbD 0 = decide ((draw (draw s).2).1 % 2 = 1) ∧
      (confirmOutcome op T row n u m s).die.status.getLsbD 6 = true := by
  have hst : (confirmOutcome op T row n u m s).die.status = statusAfter true (draw (draw s).2).1 := by
    rw [(confirmOutcome_keeps op T row n u m s).1]
    simp only [confirmed, hready, decide_true]
  rw [hst]
  exact ⟨statusAfter_pass _, statusAfter_ready_bit _⟩

/-- Only the latched rows may have moved, if the array of a success differs there alone (R68, R69). -/
theorem sameOutside_confirmOutcome {row n u : Nat} {m : Memory} {s : State} (op : Byte) (T : Nat)
    (hm : SameOutside row n u s.die.arr m) :
    SameOutside row n u s.die.arr (confirmOutcome op T row n u m s).die.arr := by
  unfold confirmOutcome
  split
  · exact hm
  · exact sameOutside_tearRows n row u (confirmed op T s)

theorem confirmOutcome_arr {op : Byte} {T : Nat} {s : State} (hready : (draw s).1 < T) (hpass : (draw (draw s).2).1 % 2 = 0)
    (row n u : Nat) (m : Memory) : (confirmOutcome op T row n u m s).die.arr = m := by
  rw [confirmOutcome, if_pos (confirmPasses_iff.2 ⟨hready, hpass⟩)]
  rfl

@[simp] theorem confirmed_cfg (op : Byte) (T : Nat) (s : State) : (confirmed op T s).cfg = s.cfg := rfl

@[simp] theorem confirmed_power (op : Byte) (T : Nat) (s : State) : (confirmed op T s).env.power = s.env.power := by
  simp [confirmed]

theorem RowOk.confirmed {p : Profile} {row : Nat} {s : State} (h : RowOk p row s) (op : Byte) (T : Nat) :
    RowOk p row (confirmed op T s) := h.of_busOnly (busOnly_confirmed op T s)

/-- A program confirm over a latched page of `U` bytes (R186, R68). -/
theorem busProgConfirm_spec {s : State} {p : Profile} {row : Nat} {bytes : List Byte} (hc : s.cfg.ok = true)
    (h : RowOk p row s) (hlen : bytes.length = p.unitSize) (hpw : s.env.power = .on)
    (hl : s.die.latch = .prog (addrBytes s.cfg 0 row) bytes) :
    (busProgConfirm s).2 =
      confirmOutcome s.cfg.opProgConfirm s.cfg.readyTimeoutProg row 1 p.unitSize (programRow s.die.arr row bytes) s := by
  obtain ⟨-, -, -, -, hrows, -⟩ := Profile.ok_bounds (heldProfile_ok hc h.held)
  have hrow := h.confirmed s.cfg.opProgConfirm s.cfg.readyTimeoutProg
  have haddr : addrRow s.cfg (addrBytes s.cfg 0 row) = row := addrRow_addrBytes _ _ _ (h.inRange.trans hrows)
  rw [busProgConfirm_eq, hl]
  refine (dieProgram_spec _ (hrow.pageAddrOk hc) (hlen.trans hrow.geometry.1.symm) (by simpa using hpw)).trans ?_
  rw [hrow.geometry.1, confirmed_cfg, haddr]
  rfl

/-- An erase confirm over a latched block (R187, R69). -/
theorem busEraseConfirm_spec {s : State} {p : Profile} {block : Nat} (hc : s.cfg.ok = true)
    (h : RowOk p (block * p.pagesPerBlock) s) (hpw : s.env.power = .on)
    (hl : s.die.latch = .erase (rowBytes s.cfg (block * p.pagesPerBlock))) :
    (busEraseConfirm s).2 =
      confirmOutcome s.cfg.opEraseConfirm s.cfg.readyTimeoutErase (block * p.pagesPerBlock) p.pagesPerBlock p.unitSize
        (eraseRows s.die.arr (block * p.pagesPerBlock) p.pagesPerBlock p.unitSize) s := by
  obtain ⟨-, -, -, -, hrows, -⟩ := Profile.ok_bounds (heldProfile_ok hc h.held)
  have hrow := h.confirmed s.cfg.opEraseConfirm s.cfg.readyTimeoutErase
  have haddr : unLe (rowBytes s.cfg (block * p.pagesPerBlock)) = block * p.pagesPerBlock :=
    unLe_leBytes_of_lt (h.inRange.trans hrows)
  rw [busEraseConfirm_eq, hl]
  refine (dieErase_spec _ (hrow.blockAddrOk hc) (by simpa using hpw)).trans ?_
  rw [hrow.geometry.1, hrow.geometry.2.1, confirmed_cfg, haddr]
  rfl

/-- Settles O14: the outcome of a confirm whose success is the programmed row. -/
theorem progConfirmProgramsTheRow : Obligations.ProgConfirmProgramsTheRow := by
  intro s p row bytes hc hrow hlen hpw hl
  have hspec := busProgConfirm_spec hc hrow hlen hpw hl
  refine ⟨_, congrArg Host.Outcome.next hspec, hspec ▸ busOnly_busProgConfirm s, confirmOutcome_latch ..,
    confirmOutcome_trace .., sameOutside_confirmOutcome _ _ (hlen ▸ sameOutside_programRow s.die.arr row bytes),
    fun hready => ?_⟩
  obtain ⟨hfail, hrdy⟩ := confirmOutcome_status (op := s.cfg.opProgConfirm) hready row 1 p.unitSize
    (programRow s.die.arr row bytes)
  refine ⟨hfail, hrdy, fun hpass i b hb => ?_⟩
  obtain ⟨hi, rfl⟩ := List.getElem?_eq_some_iff.1 hb
  rw [confirmOutcome_arr hready hpass, cellByte_programRow _ _ _ _ hi]

/-- Settles O15: the outcome of a confirm whose success is the erased block. -/
theorem eraseConfirmErasesTheBlock : Obligations.EraseConfirmErasesTheBlock := by
  intro s p block hc hrow hpw hl
  have hspec := busEraseConfirm_spec hc hrow hpw hl
  obtain ⟨-, hunit, -⟩ := Profile.ok_bounds (heldProfile_ok hc hrow.held)
  refine ⟨_, congrArg Host.Outcome.next hspec, hspec ▸ busOnly_busEraseConfirm s, confirmOutcome_latch ..,
    confirmOutcome_trace .., sameOutside_confirmOutcome _ _ (sameOutside_eraseRows _ _ _ _), fun hready => ?_⟩
  obtain ⟨hfail, hrdy⟩ := confirmOutcome_status (op := s.cfg.opEraseConfirm) hready (block * p.pagesPerBlock)
    p.pagesPerBlock p.unitSize (eraseRows s.die.arr (block * p.pagesPerBlock) p.pagesPerBlock p.unitSize)
  refine ⟨hfail, hrdy, fun hpass g i hg hi => ?_⟩
  rw [confirmOutcome_arr hready hpass, cellByte, read_eraseRows _ _ _ _ _ _ hi (by omega) (by omega) (by omega)]
  rfl

/-! ## Autotune (R201) -/

/-- From `s` to `t` only the bus side and the session registers moved. -/
def BusOrSession (s t : State) : Prop := BusOnly { s with ses := t.ses } t

theorem BusOnly.setSession {s t : State} (h : BusOnly s t) (x : Session) : BusOnly { s with ses := x } { t with ses := x } :=
  ⟨by dsimp only; rw [h.registers], h.dieFixed, h.schedule, h.traceGrows⟩

theorem BusOrSession.of_busOnly {s t : State} (h : BusOnly s t) : BusOrSession s t := h.setSession t.ses

theorem BusOrSession.trans {s t u : State} (h : BusOrSession s t) (k : BusOrSession t u) : BusOrSession s u :=
  (h.setSession u.ses).trans k

theorem busOrSession_setTiming (x : Timing) (s : State) : BusOrSession s (setTiming x s) := BusOnly.refl _

theorem busOnly_trialReadId (s : State) : BusOnly s (trialReadId s).2 :=
  (busOnly_drawBytes _ s).trans (busOnly_idCycles _ _)

theorem busOrSession_autotuneLoop (ref : List Byte) (cs : List Timing) (best : Timing) (s : State) :
    BusOrSession s (autotuneLoop ref cs best s) := by
  induction cs generalizing best s with
  | nil => exact busOrSession_setTiming best s
  | cons c cs ih =>
    have htrial := (busOrSession_setTiming c s).trans (.of_busOnly (busOnly_trialReadId _))
    simp only [autotuneLoop]
    split
    · exact htrial.trans (ih c _)
    · exact htrial.trans (busOrSession_setTiming best _)

theorem busOrSession_autotune (s : State) : BusOrSession s (autotune s) :=
  ((busOrSession_setTiming _ s).trans (.of_busOnly (busOnly_busReadId _))).trans (busOrSession_autotuneLoop _ _ _ _)

/-- The state in which autotune begins its trials: the safe setting, and the reference read done. -/
def referenceRead (s : State) : State := idCycles (s.die.nandId.take s.cfg.idLen) (setTiming s.cfg.timingSafe s)

theorem autotune_of_le {s : State} (h : s.cfg.idLen ≤ s.die.nandId.length) :
    autotune s =
      autotuneLoop (s.die.nandId.take s.cfg.idLen) s.cfg.autotuneCandidates s.cfg.timingSafe (referenceRead s) := by
  simp only [autotune, busReadId_of_le (s := setTiming s.cfg.timingSafe s) h]
  rfl

/-- Settles O18: the pass over the candidates, begun after the reference read, which uses up no answer. -/
theorem autotuneKeepsATrialledSetting : Obligations.AutotuneKeepsATrialledSetting := by
  rintro s n ref trial rfl rfl htrial
  refine ⟨busOrSession_autotune s, (sameDurable_autotune s).arr, fun hid => ?_⟩
  have henv : ∀ i, ((fun t => (drawBytes s.cfg.idLen t).2)^[i] s).env =
      ((fun t => (drawBytes s.cfg.idLen t).2)^[i] (referenceRead s)).env := fun i => drawBytes_iterate_congr _ i rfl
  obtain ⟨k, hk, hbefore, hfails, hloop⟩ := autotuneLoop_spec (s.die.nandId.take s.cfg.idLen) s.cfg.autotuneCandidates
    s.cfg.timingSafe (s := referenceRead s) rfl trial fun i => (htrial i).trans (drawBytes_congr _ (henv i)).1
  refine ⟨k, hk, hbefore, hfails, ?_⟩
  rw [autotune_of_le hid, hloop, henv]
  simp [referenceRead, idCycles_eq, setTiming]

end Sys2Proof.Machine
end

section
/-! SUPPORT. The stream codec (spec/43_stream_codec.md R222, R223, R226, R227): which payloads decode to which unit, and that
the encoder emits such a payload. -/

namespace Sys2Proof.Machine

/-! ## Run tokens (R114) -/

/-- The bytes that run tokens stand for. -/
def runBytes (ts : List RunToken) : List Byte := (ts.map (fun t => List.replicate t.count.toNat t.value)).flatten

@[simp] theorem runBytes_nil : runBytes [] = [] := rfl

@[simp] theorem runBytes_cons (t : RunToken) (ts : List RunToken) :
    runBytes (t :: ts) = List.replicate t.count.toNat t.value ++ runBytes ts := rfl

/-- A body of run tokens has two bytes per token. -/
@[simp] theorem bytesOfTokens_length (ts : List RunToken) : (bytesOfTokens ts).length = 2 * ts.length := by
  induction ts with
  | nil => rfl
  | cons t ts ih => simp only [bytesOfTokens, List.length_cons, ih]; omega

@[simp] theorem bytesOfTokens_eq_nil_iff {ts : List RunToken} : bytesOfTokens ts = [] ↔ ts = [] := by
  cases ts <;> simp [bytesOfTokens]

/-- Every body of an even number of bytes is one of run tokens. -/
theorem exists_bytesOfTokens_of_even : ∀ {body : List Byte}, body.length % 2 ≠ 1 → ∃ ts, body = bytesOfTokens ts
  | [], _ => ⟨[], rfl⟩
  | [_], h => absurd rfl h
  | v :: n :: r, h => by
    obtain ⟨ts, rfl⟩ := exists_bytesOfTokens_of_even (body := r) (by simp only [List.length_cons] at h; omega)
    exact ⟨⟨v, n⟩ :: ts, rfl⟩

/-! ## What decodes (R226, R113) -/

/-- The token loop appends the runs, and answers if no count is zero and the total is `U` bytes. -/
theorem rleDecode_bytesOfTokens_iff {u : Nat} {out x : List Byte} {ts : List RunToken} :
    rleDecode u out (bytesOfTokens ts) = some x ↔
      (∀ t ∈ ts, t.count ≠ 0) ∧ x = out ++ runBytes ts ∧ x.length = u := by
  induction ts generalizing out with
  | nil =>
    simp only [bytesOfTokens, rleDecode, runBytes_nil, List.append_nil]
    split_ifs with hlen
    · simpa [eq_comm (a := out)] using fun h : x = out => h ▸ hlen
    · simpa using fun h : x = out => h ▸ hlen
  | cons t ts ih =>
    simp only [bytesOfTokens, rleDecode]
    split_ifs with hzero hover
    · simp [hzero]
    · suffices x = out ++ runBytes (t :: ts) → x.length ≠ u by simpa using fun _ _ => this
      rintro rfl
      simp only [runBytes_cons, List.length_append] at hover ⊢
      omega
    · rw [ih, List.forall_mem_cons, and_iff_right hzero, runBytes_cons, List.append_assoc]

theorem decodeUnit_raw_iff {u : Nat} {body x : List Byte} :
    decodeUnit u (0x00 :: body) = some x ↔ body = x ∧ x.length = u := by
  simp only [decodeUnit, if_true, Option.ite_none_right_eq_some, Option.some.injEq]
  exact ⟨fun ⟨hlen, hx⟩ => ⟨hx, hx ▸ hlen⟩, fun ⟨hx, hlen⟩ => ⟨hx ▸ hlen, hx⟩⟩

theorem decodeUnit_blank_iff {u : Nat} {body x : List Byte} :
    decodeUnit u (0x02 :: body) = some x ↔ body = [] ∧ x = List.replicate u 0xFF := by
  simp [decodeUnit, erased, eq_comm]

theorem decodeUnit_rle_iff {u : Nat} {body x : List Byte} :
    decodeUnit u (0x01 :: body) = some x ↔
      ∃ ts : List RunToken,
        ts ≠ [] ∧ body = bytesOfTokens ts ∧ (∀ t ∈ ts, t.count ≠ 0) ∧ x = runBytes ts ∧ x.length = u := by
  have htag : decodeUnit u (0x01 :: body) = if body = [] ∨ body.length % 2 = 1 then none else rleDecode u [] body := rfl
  rw [htag]
  constructor
  · intro h
    split_ifs at h with hbad
    obtain ⟨hne, heven⟩ := not_or.1 hbad
    obtain ⟨ts, rfl⟩ := exists_bytesOfTokens_of_even heven
    exact ⟨ts, mt bytesOfTokens_eq_nil_iff.2 hne, rfl, rleDecode_bytesOfTokens_iff.1 h⟩
  · rintro ⟨ts, hne, rfl, h⟩
    rw [if_neg (by simp [hne])]
    exact rleDecode_bytesOfTokens_iff.2 h

/-- A payload that decodes has one of the three tags of R113. -/
theorem tag_of_decodeUnit {u : Nat} {p x : List Byte} (h : decodeUnit u p = some x) :
    ∃ tag body, p = tag :: body ∧ (tag = 0x00 ∨ tag = 0x02 ∨ tag = 0x01) := by
  cases p with
  | nil => cases h
  | cons tag body =>
    simp only [decodeUnit] at h
    split_ifs at h with hraw hblank hrle
    all_goals exact ⟨tag, body, rfl, by tauto⟩

/-- Settles O8, tag by tag. -/
theorem legalStreamUnits : Obligations.LegalStreamUnits := by
  intro u p x
  constructor
  · intro h
    obtain ⟨tag, body, rfl, rfl | rfl | rfl⟩ := tag_of_decodeUnit h
    · obtain ⟨rfl, hlen⟩ := decodeUnit_raw_iff.1 h
      exact .inl ⟨rfl, hlen⟩
    · obtain ⟨rfl, hx⟩ := decodeUnit_blank_iff.1 h
      exact .inr (.inl ⟨rfl, hx⟩)
    · obtain ⟨ts, hne, rfl, hts⟩ := decodeUnit_rle_iff.1 h
      exact .inr (.inr ⟨ts, hne, rfl, hts⟩)
  · rintro (⟨rfl, hlen⟩ | ⟨rfl, hx⟩ | ⟨ts, hne, rfl, hts⟩)
    · exact decodeUnit_raw_iff.2 ⟨rfl, hlen⟩
    · exact decodeUnit_blank_iff.2 ⟨rfl, hx⟩
    · exact decodeUnit_rle_iff.2 ⟨ts, hne, rfl, hts⟩

/-! ## What the encoder emits (R222, R223) -/

/-- A run of 1 to 255 bytes has its length as its count byte, and the count is not zero. -/
theorem runCount_toNat {n : Nat} (hn : 1 ≤ n) (hle : n ≤ 255) :
    (BitVec.ofNat 8 n).toNat = n ∧ BitVec.ofNat 8 n ≠ 0 := by
  bv_omega

/-- The encoder emits run tokens without a zero count that stand for the run begun and the bytes after it. -/
theorem rleRun_eq_bytesOfTokens {maxRun n : Nat} (hmax : maxRun ≤ 255) (hn : 1 ≤ n) (hle : n ≤ maxRun) (v : Byte)
    (x : List Byte) :
    ∃ ts : List RunToken,
      ts ≠ [] ∧ rleRun maxRun v n x = bytesOfTokens ts ∧ (∀ t ∈ ts, t.count ≠ 0) ∧
        runBytes ts = List.replicate n v ++ x := by
  induction x generalizing v n with
  | nil =>
    obtain ⟨hcount, hzero⟩ := runCount_toNat hn (hle.trans hmax)
    exact ⟨[⟨v, BitVec.ofNat 8 n⟩], List.cons_ne_nil _ _, rfl, by simpa using hzero, by simp [hcount]⟩
  | cons b r ih =>
    by_cases hrun : b = v ∧ n < maxRun
    · obtain ⟨rfl, hlt⟩ := hrun
      obtain ⟨ts, hne, hts, hpos, hruns⟩ := ih (Nat.le_add_left 1 n) hlt b
      refine ⟨ts, hne, by rw [rleRun, if_pos ⟨rfl, hlt⟩, hts], hpos, ?_⟩
      rw [hruns, List.replicate_succ', List.append_assoc, List.singleton_append]
    · obtain ⟨hcount, hzero⟩ := runCount_toNat hn (hle.trans hmax)
      obtain ⟨ts, -, hts, hpos, hruns⟩ := ih le_rfl (hn.trans hle) b
      refine ⟨⟨v, BitVec.ofNat 8 n⟩ :: ts, List.cons_ne_nil _ _, by rw [rleRun, if_neg hrun, hts]; rfl,
        List.forall_mem_cons.2 ⟨hzero, hpos⟩, ?_⟩
      rw [runBytes_cons, hcount, hruns]; rfl

theorem decodeUnit_rleEncode {maxRun u : Nat} {x : List Byte} (hmin : 1 ≤ maxRun) (hmax : maxRun ≤ 255) (hu : 1 ≤ u)
    (hx : x.length = u) : decodeUnit u (0x01 :: rleEncode maxRun x) = some x := by
  cases x with
  | nil => simp at hx; omega
  | cons b r =>
    obtain ⟨ts, hne, hts, hpos, hruns⟩ := rleRun_eq_bytesOfTokens hmax le_rfl hmin b r
    exact decodeUnit_rle_iff.2 ⟨ts, hne, hts, hpos, hruns.symm, hx⟩

theorem allFf_iff {x : List Byte} : allFf x = true ↔ x = List.replicate x.length 0xFF := by
  simp [allFf, erased, List.eq_replicate_iff]

/-- Each of the three forms the encoder may choose decodes to the unit. -/
theorem decodeUnit_encodeUnit {maxRun u : Nat} {x : List Byte} (compress skipBlank : Bool) (hmin : 1 ≤ maxRun)
    (hmax : maxRun ≤ 255) (hu : 1 ≤ u) (hx : x.length = u) :
    decodeUnit u (encodeUnit maxRun x compress skipBlank) = some x := by
  unfold encodeUnit
  split_ifs with hblank hcompress
  · have hff : allFf x = true := (Bool.and_eq_true_iff.1 hblank).2
    exact decodeUnit_blank_iff.2 ⟨rfl, hx ▸ allFf_iff.1 hff⟩
  · exact decodeUnit_rleEncode hmin hmax hu hx
  · exact decodeUnit_raw_iff.2 ⟨rfl, hx⟩

/-- Settles O7. The converse fails at the raw unit of one byte, which run-length coding would send as a token. -/
theorem streamUnitRoundTrip : Obligations.StreamUnitRoundTrip :=
  ⟨fun _ _ _ compress skipBlank hmin hmax hu hx => decodeUnit_encodeUnit compress skipBlank hmin hmax hu hx,
    1, 1, [0x00, 0x55], [0x55], true, false, by decide⟩

end Sys2Proof.Machine
end

section
/-! SUPPORT. The chunk hash (spec/44_integrity.md R241): one byte of it is a bijection of the running value and tells bytes
apart, so that a difference in one byte outlives every byte after it. -/

namespace Sys2Proof.Machine

/-! ## One byte of the hash (R241) -/

/-- The body of the loop of R241. -/
def hashStep (h : U32) (b : Byte) : U32 := (h * 33) ^^^ BitVec.setWidth 32 b

theorem chunkHash_eq_foldl {c : Config} (hc : c.hash = .mulXor) (x : List Byte) :
    chunkHash c x = x.foldl hashStep c.hashInit := by
  simp only [chunkHash, hc]; rfl

/-- 33 is odd: its inverse modulo 2^32 is `0x3E0F83E1`. -/
theorem isUnit_thirtyThree : IsUnit (33 : U32) := .of_mul_eq_one 0x3E0F83E1 (by decide)

theorem zext32_injective : Function.Injective (BitVec.setWidth 32 : Byte → U32) :=
  Function.LeftInverse.injective (g := BitVec.setWidth 8) fun b => by
    rw [BitVec.setWidth_setWidth_of_le b (by decide), BitVec.setWidth_eq]

theorem hashStep_injective (b : Byte) : Function.Injective (hashStep · b) :=
  fun _ _ h => isUnit_thirtyThree.mul_left_injective ((BitVec.xor_left_inj _).1 h)

theorem hashStep_byte_injective (h : U32) : Function.Injective (hashStep h) :=
  fun _ _ heq => zext32_injective ((BitVec.xor_right_inj _).1 heq)

/-! ## The hash of a chunk (R241) -/

/-- The bytes that two chunks end in alike keep their running values apart. -/
theorem foldl_hashStep_injective (x : List Byte) : Function.Injective (x.foldl hashStep) := by
  induction x with
  | nil => exact Function.injective_id
  | cons b r ih => exact ih.comp (hashStep_injective b)

theorem chunkHash_ne_of_byte_ne {c : Config} (hc : c.hash = .mulXor) (pre post : List Byte) {b b' : Byte} (hb : b ≠ b') :
    chunkHash c (pre ++ b :: post) ≠ chunkHash c (pre ++ b' :: post) := by
  simp only [chunkHash_eq_foldl hc, List.foldl_append, List.foldl_cons]
  exact (foldl_hashStep_injective post).ne ((hashStep_byte_injective _).ne hb)

/-- Settles O9. -/
theorem hashTellsOneChangedByte : Obligations.HashTellsOneChangedByte := by
  refine ⟨rfl, rfl, fun c hc => ⟨?empty, fun x b => ?snoc, fun pre post _ _ => chunkHash_ne_of_byte_ne hc pre post⟩⟩
  case empty => rw [chunkHash_eq_foldl hc, List.foldl_nil]
  case snoc => rw [chunkHash_eq_foldl hc, chunkHash_eq_foldl hc, List.foldl_concat, hashStep]

end Sys2Proof.Machine
end

section
/-! SUPPORT. The checkpoint (spec/45_checkpoint.md R251, R252, R255 to R257): its writes are whole or absent, and each outcome
of the resume decision fixes how the operation starts (spec/46_sequencer.md R279). -/

namespace Sys2Proof.Machine

/-! ## Writes of the record (R251, R252, R400) -/

/-- Whatever the supply does, an effect on the record happens whole, with some supply left over, or not at all. -/
theorem recordEffect_whole_or_absent (f : State → State) (s : State) :
    (recordEffect f s).cp = s.cp ∨ ∃ q, recordEffect f s = f { s with env := { s.env with power := q } } := by
  unfold recordEffect
  split
  · exact .inr ⟨s.env.power, rfl⟩
  · exact .inr ⟨_, rfl⟩
  · exact .inl rfl
  · exact .inl rfl

theorem save_whole_or_absent (kind : Byte) (block : U32) (page : U16) (hash token : U32) (s : State) :
    (save kind block page hash token s).cp = s.cp ∨
      (save kind block page hash token s).cp =
        { valid := true, kind := kind, block := block, page := page, hash := hash, token := token } :=
  (recordEffect_whole_or_absent _ s).imp_right fun ⟨_, h⟩ => congrArg State.cp h

theorem clearCp_whole_or_absent (s : State) : (clearCp s).cp = s.cp ∨ (clearCp s).cp.valid = false :=
  (recordEffect_whole_or_absent _ s).imp_right fun ⟨_, h⟩ => congrArg (fun t => t.cp.valid) h

theorem clearCp_invalid {s : State} (h : s.env.power = .on) : (clearCp s).cp.valid = false := by
  obtain ⟨_, hvalid, hclear⟩ := clearCp_on h
  rw [hclear]
  exact hvalid

/-- Settles O50: both writes are effects on the record, whole or absent under any supply. -/
theorem checkpointWritesAreAtomic : Obligations.CheckpointWritesAreAtomic := by
  rintro s kind block page hash token _ rfl
  exact ⟨fun hpower => save_on hpower kind block page hash token, save_whole_or_absent kind block page hash token s,
    clearCp_invalid, clearCp_whole_or_absent s, (clearCp_frame s).1, (save_frame kind block page hash token s).1⟩

/-! ## The resume decision (R255 to R257) -/

/-- The state once a read transaction is over: latch, trace and answers have moved (R196). -/
def afterRead (tr : List BusCycle) (env : Env) (s : State) : State :=
  { s with die := { s.die with latch := .idle }, trace := tr, env := env }

/-- A row of the array reads back in time: the first attempt answers (R199, R67). -/
theorem readRetry_of_ready {s : State} {p : Profile} {row : Nat} (hok : s.cfg.ok = true) (hrow : RowOk p row s)
    (hready : (draw s).1 < s.cfg.readyTimeoutRead) :
    ∃ tr env, env.power = s.env.power ∧
      readRetry row p.unitSize s = (.ok (readRow s.die.arr row p.unitSize), afterRead tr env s) := by
  have hread := memRead_spec hok hrow le_rfl
  rw [if_pos hready] at hread
  exact ⟨_, _, draw_power s, (readRetry_of (by rw [hread]; nofun)).trans hread⟩

theorem resumeDecision_stale {p : Profile} {kind : Byte} {start total : Nat} {s : State} (hvalid : s.cp.valid = true)
    (hstale : s.cp.kind ≠ kind ∨ s.ses.resumeMode = false ∨ cpInRange s.cfg p s.cp kind start total = false) :
    resumeDecision p kind start total s = (.start 3 0, clearCp s) := by
  rw [resumeDecision, if_neg (by simp [hvalid]), if_pos hstale]

/-- The checkpoint is one that a request of this kind and range can resume after (R255, R257). -/
structure Resumable (p : Profile) (kind : Byte) (start total : Nat) (s : State) : Prop where
  valid : s.cp.valid = true
  sameKind : s.cp.kind = kind
  mode : s.ses.resumeMode = true
  inRange : cpInRange s.cfg p s.cp kind start total = true

theorem Resumable.not_stale {p : Profile} {kind : Byte} {start total : Nat} {s : State} (h : Resumable p kind start total s) :
    ¬(s.cp.kind ≠ kind ∨ s.ses.resumeMode = false ∨ cpInRange s.cfg p s.cp kind start total = false) := by
  simp [h.sameKind, h.mode, h.inRange]

/-- A matching checkpoint of a Read or Erase is trusted. -/
theorem resumeDecision_trusted {p : Profile} {kind : Byte} {start total : Nat} {s : State}
    (h : Resumable p kind start total s) (hkind : kind ≠ s.cfg.commands.write) :
    resumeDecision p kind start total s = (.start 1 (cpDone s.cfg p s.cp kind start), s) := by
  rw [resumeDecision, if_neg (by simp [h.valid]), if_neg h.not_stale, if_neg hkind]

/-- A matching checkpoint of a Write is worth what its row reads back as. -/
theorem resumeDecision_reverified {p : Profile} {start total : Nat} {s u : State} {x : List Byte}
    (h : Resumable p s.cfg.commands.write start total s) (hread : readRetry (cpRow p s.cp) p.unitSize s = (.ok x, u)) :
    resumeDecision p s.cfg.commands.write start total s =
      if chunkHash s.cfg x = s.cp.hash then (.start 1 (cpDone s.cfg p s.cp s.cfg.commands.write start), u)
      else (.start 2 0, clearCp u) := by
  rw [resumeDecision, if_neg (by simp [h.valid]), if_neg h.not_stale, if_pos rfl]
  simp only [hread]

/-! ## The start that follows from it (R279) -/

theorem exec_valid_request {i : Instr} {kind : Byte} {r : Request} {p : Profile} {start total : Nat} {s : State}
    (hreq : requestOf s.cfg i = some (kind, r)) (hidle : idleLike s.seq = true) (hheld : heldProfile s = some p)
    (hrange : validate s.cfg p kind r = some (start, total)) : exec i s = .next (runOp p kind r start total s) :=
  (exec_request hreq hidle).trans (startOp_valid hheld hrange)

theorem beginOp_op (p : Profile) (kind : Byte) (r : Request) (start total : Nat) (s : State) :
    (beginOp p kind r start total s).op = freshOp s.cfg p kind r start total := by
  rw [beginOp_eq]

theorem runOp_fresh {p : Profile} {kind info : Byte} {r : Request} {start total : Nat} {s u : State}
    (hdec : resumeDecision p kind start total (beginOp p kind r start total s) = (.start info 0, u)) (hinfo : info ≠ 1)
    (hop : u.op = freshOp u.cfg p kind r start total) (hpos : 1 ≤ total) (hlt : total < 2 ^ 32) :
    runOp p kind r start total s =
      { u with tx := u.tx ++ ackFrame u.cfg kind info ++ progressFrame u.cfg 0 (BitVec.ofNat 32 total) } := by
  simp only [runOp, hdec, if_neg hinfo]
  exact announce_fresh hop hpos hlt

/-- The record is cleared when the resume left nothing to do; else neither it nor an answer is touched. -/
theorem runOp_resumed {p : Profile} {kind : Byte} {r : Request} {start total done0 : Nat} {s u : State}
    (hdec : resumeDecision p kind start total (beginOp p kind r start total s) = (.start 1 done0, u))
    (hop : u.op = freshOp u.cfg p kind r start total) (hpower : u.env.power = .on) (hlt : total < 2 ^ 32)
    (hle : done0 ≤ total) :
    ∃ cp env,
      runOp p kind r start total s =
          { u with
            seq := if done0 = total then .completed else u.seq
            op := resumedOp u.cfg p kind r start total done0 u.cp.hash
            tx := u.tx ++ ackFrame u.cfg kind 1 ++ progressFrame u.cfg (BitVec.ofNat 32 done0) (BitVec.ofNat 32 total) ++
              (if done0 = total then completeFrame u.cfg kind (BitVec.ofNat 32 total) else [])
            cp := cp
            env := env } ∧
        (if done0 = total then cp.valid = false else cp = u.cp ∧ env = u.env) := by
  simp only [runOp, hdec, if_true]
  exact ⟨_, _, announce_resumed hpower hlt hle hop⟩

/-- Settles O22: the resume decision clears the stale checkpoint and answers a fresh start with `info = 3`. -/
theorem staleCheckpointIsCleared : Obligations.StaleCheckpointIsCleared := by
  intro i kind r p start total s hreq hok hidle hheld hrange hvalid hpower hstale
  obtain ⟨hpos, hlt, -⟩ := validate_lt (heldProfile_ok hok hheld) hrange
  have hdec := resumeDecision_stale (s := beginOp p kind r start total s) hvalid hstale
  obtain ⟨cp, hcleared, hclear⟩ := clearCp_on (s := beginOp p kind r start total s) hpower
  rw [hclear] at hdec
  have hrun := runOp_fresh hdec (by decide) (beginOp_op p kind r start total s) hpos hlt
  rw [beginOp_eq] at hrun
  exact ⟨_, (exec_valid_request hreq hidle hheld hrange).trans (congrArg _ hrun), hcleared, rfl⟩

/-- Settles O23: the resume decision trusts the checkpoint and leaves the machine as the request did. -/
theorem readAndEraseResumeAfterTheCheckpoint : Obligations.ReadAndEraseResumeAfterTheCheckpoint := by
  intro i kind r p start total done0 s hreq hkind hok hidle hheld hrange hvalid hpower hcp hmode hin hdone
  obtain ⟨-, hlt, -⟩ := validate_lt (heldProfile_ok hok hheld) hrange
  obtain ⟨hcount, hle⟩ := cpDone_eq hin
  rw [← hdone] at hcount
  have hdec := resumeDecision_trusted (s := beginOp p kind r start total s) ⟨hvalid, hcp, hmode, hin⟩ hkind
  obtain ⟨cp, env, hrun, hrecord⟩ := runOp_resumed hdec (beginOp_op p kind r start total s) hpower hlt hle
  have hexec := (exec_valid_request hreq hidle hheld hrange).trans (congrArg _ hrun)
  rw [← hcount]
  exact ⟨_, hexec, rfl, hrecord⟩

/-- The resume decision of an accepted Write whose checkpoint row reads back in time. -/
theorem resumeDecision_of_accepted_write {p : Profile} {r : Request} {start total : Nat} {s : State} (hok : s.cfg.ok = true)
    (hrow : RowOk p (cpRow p s.cp) s) (hready : (draw s).1 < s.cfg.readyTimeoutRead)
    (h : Resumable p s.cfg.commands.write start total s) :
    ∃ tr env, env.power = s.env.power ∧
      resumeDecision p s.cfg.commands.write start total (beginOp p s.cfg.commands.write r start total s) =
        if chunkHash s.cfg (readRow s.die.arr (cpRow p s.cp) p.unitSize) = s.cp.hash then
          (.start 1 (cpDone s.cfg p s.cp s.cfg.commands.write start),
            afterRead tr env (beginOp p s.cfg.commands.write r start total s))
        else (.start 2 0, clearCp (afterRead tr env (beginOp p s.cfg.commands.write r start total s))) := by
  have hready' : (draw (beginOp p s.cfg.commands.write r start total s)).1 < s.cfg.readyTimeoutRead := by
    rw [@draw_congr s (beginOp p s.cfg.commands.write r start total s) rfl]
    exact hready
  obtain ⟨tr, env, hpower, hread⟩ := readRetry_of_ready (s := beginOp p s.cfg.commands.write r start total s) hok
    ⟨hrow.held, hrow.agrees, hrow.inRange⟩ hready'
  exact ⟨tr, env, hpower, resumeDecision_reverified ⟨h.valid, h.sameKind, h.mode, h.inRange⟩ hread⟩

/-- Settles O24, by cases on whether the row read back hashes to `CP_HASH`. -/
theorem writeResumesOnlyAfterReverification : Obligations.WriteResumesOnlyAfterReverification := by
  rintro r p start total _ done0 s hok hdistinct hidle hrange hvalid hpower hcp hmode hin rfl hdone hrow hready
  obtain ⟨hpos, hlt, -⟩ := validate_lt (heldProfile_ok hok hrow.held) hrange
  obtain ⟨hcount, hle⟩ := cpDone_eq hin
  rw [if_neg (kinds_ne hdistinct).2.2, ← hdone] at hcount
  rw [hcount] at hle
  have hop := beginOp_op p s.cfg.commands.write r start total s
  have hexec := exec_valid_request (i := .write r) rfl hidle hrow.held hrange
  obtain ⟨tr, env, hkept, hdec⟩ := resumeDecision_of_accepted_write (r := r) hok hrow hready ⟨hvalid, hcp, hmode, hin⟩
  have hon := hkept.trans hpower
  rw [hcount] at hdec
  split at hdec
  · next hhash =>
    obtain ⟨cp, env', hrun, hrecord⟩ := runOp_resumed hdec hop hon hlt hle
    have hkeeps : if done0 = total then cp.valid = false else cp = s.cp := by
      split
      · next hall => rwa [if_pos hall] at hrecord
      · next hleft => exact ((if_neg hleft).mp hrecord).1
    exact ⟨_, hexec.trans (congrArg _ hrun), rfl, (if_pos hhash).mpr ⟨rfl, hkeeps⟩⟩
  · next hhash =>
    obtain ⟨cp, hcleared, hclear⟩ := clearCp_on (s := afterRead tr env _) hon
    have hrun := runOp_fresh (hdec.trans (congrArg _ hclear)) (by decide) hop hpos hlt
    exact ⟨_, hexec.trans (congrArg _ hrun), rfl, (if_neg hhash).mpr ⟨by rw [beginOp_eq]; rfl, hcleared⟩⟩

end Sys2Proof.Machine
end

section
/-! SUPPORT. How the sequencer moves (spec/46_sequencer.md R270, R281): what one step can do to `SEQ` and to the place of the
operation is said once, as `Course`. `SEQ` follows the table, and `OP_DONE` counts the units. -/

namespace Sys2Proof.Machine

/-! ## What a step can do to `SEQ` and to the place of the operation -/

/-- From `q`, `o` to `q'`, `o'`: the changes of `SEQ` and of the operation registers that one step can make. -/
inductive Course (c : Config) (q : Seq) (o : OpRegs) (q' : Seq) (o' : OpRegs) : Prop where
  /-- The operation stands where it stood: it is paused, goes on, or ends unfinished, or nothing happens to it. -/
  | stands (hmove : SeqMove q q') (hop : SamePlace o o')
  /-- A unit of the running operation is done (R283). -/
  | counted (p : Profile) (hrunning : q = .running) (hseq : q' = seqAfterUnit q o) (hop : SamePlace (countedOp c p o) o')
  /-- A request is accepted (R279). -/
  | started (hidle : idleLike q = true) (hseq : q' = .running ∨ q' = .failed ∨ q' = .completed)
  /-- A session starts, or the host fell silent (R401, R376). -/
  | idle (hseq : q' = .idle)

theorem Course.seqMove {c : Config} {q q' : Seq} {o o' : OpRegs} (h : Course c q o q' o') : SeqMove q q' := by
  cases h with
  | stands hmove _ => exact hmove
  | counted p hrunning hseq _ =>
    subst hrunning hseq
    unfold seqAfterUnit
    split <;> simp [SeqMove]
  | started hidle hseq => exact .inr (.inr (.inl ⟨hidle, hseq⟩))
  | idle hseq => exact .inr (.inl hseq)

/-- `Course` from one state to another. -/
def Follows (s t : State) : Prop := Course s.cfg s.seq s.op t.seq t.op

theorem Follows.of_eq {s t : State} (hseq : t.seq = s.seq) (hop : SamePlace s.op t.op) : Follows s t :=
  .stands (.inl hseq) hop

theorem Follows.of_quiet {s t : State} (h : Quiet s t) : Follows s t := .of_eq h.seq h.op

theorem Follows.of_counted {p : Profile} {s t : State} (hrunning : s.seq = .running) (h : Counted p s t) : Follows s t :=
  .counted p hrunning h.seq h.op

theorem active_iff {q : Seq} : active q = true ↔ q = .running ∨ q = .paused := by cases q <;> simp [active]

theorem idleLike_iff {q : Seq} : idleLike q = true ↔ active q = false := by cases q <;> simp [active, idleLike]

/-- An active operation can fail or be cancelled where it stands (R372, R290). -/
theorem Follows.of_ended {s t : State} (hactive : active s.seq = true) (hseq : t.seq = .failed ∨ t.seq = .cancelled)
    (hop : SamePlace s.op t.op) : Follows s t := by
  refine .stands ?_ hop
  rcases active_iff.1 hactive with h | h <;> rw [h] <;> simp [SeqMove, hseq.symm]

/-- Quiet work, then the terminal failure of the active operation (R372). -/
theorem Follows.of_fail {s u : State} (cause : Cause) (hactive : active s.seq = true) (h : Quiet s u) :
    Follows s (fail cause u) :=
  .of_ended hactive (.inl rfl) (h.op.trans rfl)

theorem active_of_running {q : Seq} (h : q = .running) : active q = true := active_iff.2 (.inl h)

/-! ## Units -/

theorem follows_readUnit (p : Profile) {s : State} (hrunning : s.seq = .running) : Follows s (readUnit p s) := by
  have hread := quiet_readRetry (cursorRow p s) p.unitSize s
  unfold readUnit
  dsimp only
  split
  · exact .of_counted hrunning
      (.of_quiet ((hread.trans (quiet_updateChunk p _ _)).trans (quiet_emit _ _)) (counted_finishUnit p _))
  · exact .of_fail _ (active_of_running hrunning) hread
  · exact .of_fail _ (active_of_running hrunning) hread

theorem follows_writeUnit (p : Profile) (x : List Byte) {s : State} (hrunning : s.seq = .running) :
    Follows s (writeUnit p x s) := by
  have hwrite := quiet_writeOne p (cursorRow p s) x s.cfg.verifyRetryMax s
  unfold writeUnit
  dsimp only
  split
  · exact .of_counted hrunning (counted_finishWrite p x s)
  · split
    · exact .of_fail _ (active_of_running hrunning) hwrite
    · exact .of_counted hrunning (.of_quiet hwrite (counted_finishWrite p x _))

theorem follows_eraseUnit (p : Profile) {s : State} (hrunning : s.seq = .running) : Follows s (eraseUnit p s) := by
  have herase := quiet_eraseOne p s.op.curBlock.toNat s.cfg.verifyRetryMax s
  unfold eraseUnit
  dsimp only
  split
  · exact .of_fail _ (active_of_running hrunning) herase
  · exact .of_counted hrunning (.of_quiet herase (counted_finishUnit p _))

/-! ## Handlers -/

theorem follows_of_accepted {k : Cmd} {s t : State} {handler : Host.Outcome State Fault Refusal}
    (hrun : accept s.cfg k s.seq s.op.opKind = .accept → handler = .next t → Follows s t)
    (h : accepted k s handler = .next t) : Follows s t :=
  accepted_keeps (fun _ _ => .of_quiet (quiet_reject _ _ s)) hrun h

theorem follows_of_onData {payload : List Byte} {s t : State} (hrunning : s.seq = .running)
    (h : onData payload s = .next t) : Follows s t := by
  obtain ⟨p, -, h⟩ := withProfile_next h
  split at h
  · cases h
    exact .of_quiet (quiet_reject _ _ s)
  · cases h
    exact follows_writeUnit p _ hrunning

/-- An accepted request leaves the operation running, failed or completed (R279). -/
theorem runOp_seq (p : Profile) (kind : Byte) (r : Request) (start total : Nat) (s : State) :
    (runOp p kind r start total s).seq = .running ∨ (runOp p kind r start total s).seq = .failed ∨
      (runOp p kind r start total s).seq = .completed := by
  have hdec : (resumeDecision p kind start total (beginOp p kind r start total s)).2.seq = .running :=
    (resumeDecision_spec p kind start total (beginOp p kind r start total s)).1.seq
  unfold runOp
  dsimp only
  split
  · exact .inr (.inl rfl)
  · next info done0 _ =>
    rcases announce_cases info (if info = 1 then
        takeOver p start done0 (resumeDecision p kind start total (beginOp p kind r start total s)).2
      else (resumeDecision p kind start total (beginOp p kind r start total s)).2) with ⟨-, hseq⟩ | ⟨-, hquiet⟩
    · exact .inr (.inr hseq)
    · refine .inl (hquiet.seq.trans ?_)
      split <;> exact hdec

theorem follows_of_startOp {kind : Byte} {r : Request} {s t : State} (hidle : active s.seq = false)
    (h : startOp kind r s = .next t) : Follows s t := by
  unfold startOp at h
  split at h
  · cases h
    exact .of_quiet (quiet_reject _ _ s)
  · obtain ⟨p, -, h⟩ := withProfile_next h
    split at h
    · cases h
      exact .of_quiet (quiet_reject _ _ s)
    · cases h
      exact .started (idleLike_iff.2 hidle) (runOp_seq _ _ _ _ _ s)

/-- `PAUSE` writes `SEQ` and no other register (R288). -/
theorem onPause_seq_op {s t : State} (h : onPause s = .next t) : t.seq = .paused ∧ t.op = s.op := by
  unfold onPause at h
  split at h
  · cases h
    exact ⟨rfl, rfl⟩
  · obtain ⟨p, -, h⟩ := withProfile_next h
    cases h
    rw [emit_seq, emit_op, saveProgress, (save_frame _ _ _ _ _ _).1]
    exact ⟨rfl, rfl⟩

theorem follows_onSetResume (mode : Byte) (s : State) : Follows s (onSetResume mode s) := by
  have hclear := quiet_clearCp { s with ses := { s.ses with resumeMode := false } }
  unfold onSetResume
  split
  · exact .of_quiet (quiet_reject _ _ s)
  · split
    · exact .of_eq hclear.seq hclear.op
    · exact .of_eq rfl rfl

theorem follows_onSelect (index : Byte) (s : State) : Follows s (onSelect index s) := by
  unfold onSelect
  split
  · exact .of_quiet (quiet_rejectNoChip _ s)
  · exact .of_eq rfl rfl

/-- Whatever it finds, `REDETECT` leaves the sequencer alone. -/
theorem follows_onRedetect (s : State) : Follows s (onRedetect s) := by
  have hreset := quiet_resetRetry s.cfg.busRetryMax { s with ses := { s.ses with profile := 0xFF } }
  unfold onRedetect
  dsimp only
  generalize resetRetry s.cfg.busRetryMax { s with ses := { s.ses with profile := 0xFF } } = r at hreset ⊢
  have hread := hreset.trans (quiet_busReadId r.2)
  split
  · exact .of_eq hreset.seq hreset.op
  · split
    · have hend := hread.trans (quiet_rejectNoChip s.cfg.commands.redetect _)
      exact .of_eq hend.seq hend.op
    · next i _ =>
      have htune := quiet_autotune { (busReadId r.2).2 with ses := { (busReadId r.2).2.ses with profile := BitVec.ofNat 8 i } }
      split
      · exact .of_eq (htune.seq.trans hread.seq) (hread.op.trans htune.op)
      · exact .of_eq hread.seq hread.op

/-! ## Instructions, frames, events -/

theorem follows_of_exec {i : Instr} {s t : State} (h : exec i s = .next t) : Follows s t := by
  by_cases hside : i.space = .response ∨ i.space = .bus
  · obtain ⟨u, hu, hquiet⟩ := exec_quiet s hside
    cases hu.symm.trans h
    exact .of_quiet hquiet
  cases i with
  | status =>
    obtain ⟨_, rfl⟩ := execStatus_next h
    exact .of_quiet (quiet_emit _ s)
  | read | write | erase =>
    exact follows_of_accepted (fun ha hrun => follows_of_startOp (by simpa [accept] using ha) hrun) h
  | cancel =>
    refine follows_of_accepted (fun ha hrun => ?_) h
    cases hrun
    exact .of_ended (by simpa [accept] using ha) (.inr rfl) rfl
  | pause =>
    refine follows_of_accepted (fun ha hrun => ?_) h
    obtain ⟨hseq, hop⟩ := onPause_seq_op hrun
    exact .stands (by simp [SeqMove, running_of_accept_pause ha, hseq]) (by rw [hop]; rfl)
  | resumeOp =>
    refine follows_of_accepted (fun ha hrun => ?_) h
    cases hrun
    have hpaused : s.seq = .paused := by simpa [accept] using ha
    exact .stands (by simp [SeqMove, hpaused]) rfl
  | setResume mode =>
    refine follows_of_accepted (fun _ hrun => ?_) h
    cases hrun
    exact follows_onSetResume mode s
  | powerCheck =>
    cases h
    exact .of_quiet (quiet_powerCheck s)
  | select index =>
    refine follows_of_accepted (fun _ hrun => ?_) h
    cases hrun
    exact follows_onSelect index s
  | redetect =>
    refine follows_of_accepted (fun _ hrun => ?_) h
    cases hrun
    exact follows_onRedetect s
  | exit =>
    cases h
    exact .idle rfl
  | data | unitRaw | unitRle | unitBlank =>
    refine follows_of_accepted (fun ha hrun => follows_of_onData ?_ hrun) h
    exact And.left (by simpa [accept] using ha)
  | _ => simp [Instr.space] at hside

theorem follows_of_dispatchFrame {cmd : Byte} {payload : List Byte} {s t : State} (h : dispatchFrame cmd payload s = .next t) :
    Follows s t := by
  unfold dispatchFrame at h
  split at h
  · exact follows_of_exec h
  all_goals
    cases h
    exact .of_quiet (quiet_reject _ _ s)

theorem follows_onFrameError (cause : Cause) (s : State) : Follows s (onFrameError cause s) := by
  have hcount := (quiet_reject cause 0x00 s).trans (quiet_bumpFrameErr _)
  unfold onFrameError
  dsimp only
  split
  · next hrun =>
    split
    · exact .of_fail _ (active_of_running hrun.1) hcount
    · exact .of_quiet hcount
  · exact .of_quiet (quiet_reject _ _ s)

theorem follows_of_serviceResult {r : RxResult} {s t : State} (h : serviceResult r s = .next t) : Follows s t := by
  cases r with
  | none =>
    cases h
    exact .of_quiet (Quiet.refl s)
  | frame => exact follows_of_dispatchFrame h
  | errChecksum | errLength =>
    cases h
    exact follows_onFrameError _ s

theorem follows_of_engineStep {s t : State} (h : engineStep s = .next t) : Follows s t := by
  unfold engineStep at h
  split at h
  · next b rest _ =>
    have hservice : Follows { s with rxq := rest, dec := (rxByte s.cfg s.dec b).2 } t := follows_of_serviceResult h
    exact hservice
  · split at h
    · next hrun =>
      obtain ⟨p, -, h⟩ := withProfile_next h
      cases h
      exact follows_readUnit p hrun.1
    · split at h
      · next hrun =>
        obtain ⟨p, -, h⟩ := withProfile_next h
        cases h
        exact follows_eraseUnit p hrun.1
      · cases h
        exact .of_quiet (Quiet.refl s)

theorem follows_powerSample (mv : U16) (s : State) : Follows s (powerSample mv s) := by
  unfold powerSample
  dsimp only
  split
  · split
    · next hcut => exact .of_ended hcut.1 (.inl rfl) rfl
    · exact .of_eq rfl rfl
  · exact .of_eq rfl rfl

theorem follows_inactivityTimeout (s : State) : Follows s (inactivityTimeout s) := by
  unfold inactivityTimeout
  split
  · exact .idle rfl
  · exact .of_quiet (Quiet.refl s)

theorem follows_powerOn (s u : State) : Follows s (powerOn u) := .idle (powerOn_frame u).2.1

theorem follows_of_takeTurn {turn : Turn} {s t : State} (h : takeTurn turn s = .next t) : Follows s t := by
  cases turn with
  | engine => exact follows_of_engineStep h
  | hostSend bytes =>
    unfold takeTurn hostSend at h
    dsimp only at h
    repeat' split at h
    all_goals cases h
    all_goals exact .of_eq rfl rfl
  | powerSample mv =>
    cases h
    exact follows_powerSample mv s
  | inactivityTimeout =>
    cases h
    exact follows_inactivityTimeout s
  | powerOn =>
    cases h
    exact follows_powerOn s s
  | powerOnDuring n f =>
    obtain ⟨u, -, rfl⟩ := powerOnDuring_next h
    exact follows_powerOn s u
  | issue sp bytes =>
    unfold takeTurn issue at h
    dsimp only at h
    split at h
    · exact follows_of_exec h
    · cases h

theorem follows_of_step {s t : State} (h : step s = .next t) : Follows s t := by
  have hturn := follows_of_takeTurn (takeTurn_of_step h)
  exact hturn

/-- Settles O55: every change of `SEQ` that a step can make is in the table or its closure within a step. -/
theorem sequencerMovesAlongItsTable : Obligations.SequencerMovesAlongItsTable :=
  fun _ _ h => (follows_of_step h).seqMove

/-! ## `OP_DONE` counts the units (R281) -/

/-- What stays while an operation goes on, and how far `OP_DONE` moves. -/
structure Progresses (o o' : OpRegs) : Prop where
  opKind : o'.opKind = o.opKind
  optCompress : o'.optCompress = o.optCompress
  optSkipBlank : o'.optSkipBlank = o.optSkipBlank
  optVerify : o'.optVerify = o.optVerify
  opStart : o'.opStart = o.opStart
  opTotal : o'.opTotal = o.opTotal
  opDone : o'.opDone = o.opDone ∨ o'.opDone = o.opDone + 1

/-- An active operation that does not end in `Idle` progresses: no request is accepted meanwhile. -/
theorem Course.progresses {c : Config} {q q' : Seq} {o o' : OpRegs} (h : Course c q o q' o') (hactive : active q = true)
    (hidle : q' ≠ .idle) : Progresses o o' := by
  cases h with
  | stands _ hop =>
    rw [hop]
    exact ⟨rfl, rfl, rfl, rfl, rfl, rfl, .inl rfl⟩
  | counted p _ _ hop =>
    rw [hop]
    exact ⟨rfl, rfl, rfl, rfl, rfl, rfl, .inr rfl⟩
  | started hlike _ =>
    rw [idleLike_iff.1 hlike] at hactive
    cases hactive
  | idle hseq => exact absurd hseq hidle

/-- Settles O60: a sound active operation has units left, so one more does not pass `OP_TOTAL`. -/
theorem progressIsMonotone : Obligations.ProgressIsMonotone := by
  intro s t hs h hactive hidle
  have hprog := (follows_of_step h).progresses hactive hidle
  obtain ⟨_, -, -, hleft⟩ := ((inv_iff s).1 hs).1.operation hactive
  have hnext : (s.op.opDone + 1).toNat = s.op.opDone.toNat + 1 := by bv_omega
  refine ⟨hprog.opKind, hprog.optCompress, hprog.optSkipBlank, hprog.optVerify, hprog.opStart, hprog.opTotal, ?_⟩
  rw [hprog.opTotal]
  rcases hprog.opDone with hdone | hdone <;> rw [hdone] <;> omega

end Sys2Proof.Machine
end

section
/-! SUPPORT. The handlers that start, pause, cancel and continue an operation (spec/46_sequencer.md R276 to R290): which requests
are valid, how an accepted one starts without a checkpoint, and what `PAUSE` saves. -/

namespace Sys2Proof.Machine

/-! ## The range of a request (R277) -/

theorem flagsReserved_iff {r : Request} : flagsReserved r = true ↔ r.flags.toNat / 16 ≠ 0 := by
  rw [flagsReserved, decide_eq_true_iff]

theorem validate_of_reserved {c : Config} {p : Profile} {kind : Byte} {r : Request} (h : r.flags.toNat / 16 ≠ 0) :
    validate c p kind r = none := by
  rw [validate, if_pos (flagsReserved_iff.2 h)]

/-- A full-chip request names the whole array. -/
theorem validate_of_fullChip {c : Config} {p : Profile} {kind : Byte} {r : Request} (h : r.flags.toNat / 16 = 0)
    (hfull : flagFullChip r = true) :
    validate c p kind r = some (0, if kind = c.commands.erase then p.blockCount else p.rows) := by
  rw [validate, if_neg (by simp [flagsReserved_iff, h]), if_pos hfull]
  split <;> rfl

/-- A request for a range of blocks. -/
theorem validate_of_blocks {c : Config} {p : Profile} {kind : Byte} {r : Request} (h : r.flags.toNat / 16 = 0)
    (hpart : flagFullChip r = false) (hkind : kind = c.commands.erase) :
    validate c p kind r =
      if r.count = 0 ∨ p.blockCount ≤ r.startBlock.toNat ∨ r.startPage ≠ 0 ∨
          p.blockCount < r.startBlock.toNat + r.count.toNat then none
      else some (r.startBlock.toNat, r.count.toNat) := by
  have hcount : r.count.toNat = 0 ↔ r.count = 0 := BitVec.toNat_inj (y := 0)
  have hpage : r.startPage.toNat = 0 ↔ r.startPage = 0 := BitVec.toNat_inj (y := 0)
  rw [validate, if_neg (by simp [flagsReserved_iff, h]), if_neg (by simp [hpart]), if_pos hkind]
  simp only [hcount, ne_eq, hpage, ← ite_or]
  simp only [or_assoc]

/-- A request for a range of pages. -/
theorem validate_of_pages {c : Config} {p : Profile} {kind : Byte} {r : Request} (h : r.flags.toNat / 16 = 0)
    (hpart : flagFullChip r = false) (hkind : kind ≠ c.commands.erase) :
    validate c p kind r =
      if r.count = 0 ∨ p.blockCount ≤ r.startBlock.toNat ∨ p.pagesPerBlock ≤ r.startPage.toNat ∨
          p.rows < r.startBlock.toNat * p.pagesPerBlock + r.startPage.toNat + r.count.toNat then none
      else some (r.startBlock.toNat * p.pagesPerBlock + r.startPage.toNat, r.count.toNat) := by
  have hcount : r.count.toNat = 0 ↔ r.count = 0 := BitVec.toNat_inj (y := 0)
  rw [validate, if_neg (by simp [flagsReserved_iff, h]), if_neg (by simp [hpart]), if_neg hkind]
  simp only [hcount, ← ite_or]
  simp only [or_assoc]

theorem one_le_of_ne_zero {n : U32} (h : ¬n = 0) : 1 ≤ n.toNat :=
  Nat.one_le_iff_ne_zero.2 fun e => h (BitVec.eq_of_toNat_eq e)

theorem ite_none_eq_none_iff {α : Type} {q : Prop} [Decidable q] {x : α} : (if q then none else some x) = none ↔ q := by
  by_cases h : q <;> simp [h]

/-- Settles O20, by the four kinds of request: reserved flags set, the full chip, blocks, pages. -/
theorem requestValidation : Obligations.RequestValidation := by
  intro c p kind r _ hppb hblocks
  have hflag : r.flags.getLsbD 3 = flagFullChip r := rfl
  have hrows : p.blockCount * p.pagesPerBlock = p.rows := rfl
  simp only [hflag, hrows]
  by_cases hres : r.flags.toNat / 16 = 0
  · by_cases hfull : flagFullChip r = true
    · have hpos : 1 ≤ p.rows := Nat.mul_pos hblocks hppb
      rw [validate_of_fullChip hres hfull]
      refine ⟨by simp [hres, hfull], fun start total hsome => ?_⟩
      cases hsome
      split <;> simp [*]
    · rw [Bool.not_eq_true] at hfull
      by_cases hkind : kind = c.commands.erase
      · rw [validate_of_blocks hres hfull hkind]
        refine ⟨ite_none_eq_none_iff.trans (by simp [hres, hfull, hkind]), fun start total hsome => ?_⟩
        split at hsome
        · cases hsome
        · next hvalid =>
          cases hsome
          simp only [not_or, Nat.not_lt] at hvalid
          exact ⟨one_le_of_ne_zero hvalid.1, by simpa [hkind] using hvalid.2.2.2, by simp [hfull, hkind]⟩
      · rw [validate_of_pages hres hfull hkind]
        refine ⟨ite_none_eq_none_iff.trans (by simp [hres, hfull, hkind]), fun start total hsome => ?_⟩
        split at hsome
        · cases hsome
        · next hvalid =>
          cases hsome
          simp only [not_or, Nat.not_lt] at hvalid
          exact ⟨one_le_of_ne_zero hvalid.1, by simpa [hkind] using hvalid.2.2.2, by simp [hfull, hkind]⟩
  · rw [validate_of_reserved hres]
    exact ⟨by simp [hres], nofun⟩

/-! ## Starting without a checkpoint (R279, R255) -/

theorem resumeDecision_none {p : Profile} {kind : Byte} {start total : Nat} {s : State} (h : s.cp.valid = false) :
    resumeDecision p kind start total s = (.start 0 0, s) := by
  rw [resumeDecision, if_pos h]

/-- Settles O21: with no checkpoint the resume decision leaves the machine as the request did. -/
theorem operationStartsAtItsRequest : Obligations.OperationStartsAtItsRequest := by
  intro i kind r p start total s hreq hok hidle hheld hrange hvalid
  obtain ⟨hpos, hlt, -⟩ := validate_lt (heldProfile_ok hok hheld) hrange
  have hdec := resumeDecision_none (p := p) (kind := kind) (start := start) (total := total)
    (s := beginOp p kind r start total s) hvalid
  have hrun := runOp_fresh hdec (by decide) (beginOp_op p kind r start total s) hpos hlt
  rw [beginOp_eq] at hrun
  exact (exec_valid_request hreq hidle hheld hrange).trans (congrArg _ hrun)

/-! ## Refusals (R276, R277, R284) -/

theorem startOp_no_profile {kind : Byte} {r : Request} {s : State} (h : s.ses.profile = 0xFF) :
    startOp kind r s = .next (reject .chipNotDetected kind s) := if_pos h

theorem startOp_invalid {kind : Byte} {r : Request} {s : State} {p : Profile} (hheld : heldProfile s = some p)
    (hrange : validate s.cfg p kind r = none) : startOp kind r s = .next (reject .badArgument kind s) := by
  simp only [startOp, held_ne_none hheld, if_false, withProfile, hheld, hrange]

theorem onData_illegal {payload : List Byte} {s : State} {p : Profile} (hheld : heldProfile s = some p)
    (hunit : decodeUnit p.unitSize payload = none) : onData payload s = .next (reject .badData s.cfg.commands.data s) := by
  simp only [onData, withProfile, hheld, hunit]

theorem onData_legal {payload x : List Byte} {s : State} {p : Profile} (hheld : heldProfile s = some p)
    (hunit : decodeUnit p.unitSize payload = some x) : onData payload s = .next (writeUnit p x s) := by
  simp only [onData, withProfile, hheld, hunit]

/-- Settles O26: each is one `reject`, which is one frame. -/
theorem badRequestsAndUnitsAreRefused : Obligations.BadRequestsAndUnitsAreRefused := by
  intro i s
  refine ⟨fun kind r hreq hidle => ?_, fun payload p hi hrunning hkind hheld hunit => ?_⟩
  · rw [exec_request hreq hidle]
    exact ⟨startOp_no_profile, fun p hheld hrange => startOp_invalid hheld hrange⟩
  · rw [exec_unit hi hrunning hkind]
    exact onData_illegal hheld hunit

/-! ## `CANCEL`, `RESUME_OP` and `PAUSE` (R288 to R290) -/

theorem accepted_of_accept {k : Cmd} {s : State} (handler : Host.Outcome State Fault Refusal)
    (h : accept s.cfg k s.seq s.op.opKind = .accept) : accepted k s handler = handler := by
  rw [accepted, h]

/-- Settles O29: both commands are accepted, and their handlers are what the rule writes. -/
theorem cancelAndResumeTouchOnlyTheSequencer : Obligations.CancelAndResumeTouchOnlyTheSequencer :=
  fun _ => ⟨fun hactive => accepted_of_accept _ (if_pos hactive), fun hpaused => accepted_of_accept _ (if_pos hpaused)⟩

/-- The unit before the first page of a block is the last page of the block before it (R254). -/
theorem predUnit_first {p : Profile} {block : U32} {page : U16} (hppb : 1 ≤ p.pagesPerBlock) (hppb' : p.pagesPerBlock ≤ 65535)
    (hpage : page.toNat = 0) (hblock : block.toNat ≠ 0) :
    (predUnit p block page).1.toNat + 1 = block.toNat ∧ (predUnit p block page).2.toNat + 1 = p.pagesPerBlock := by
  have hlt := block.isLt
  simp only [predUnit, if_pos hpage, BitVec.toNat_ofNat]
  omega

/-- The unit before another page is the page before it (R254). -/
theorem predUnit_later (p : Profile) (block : U32) {page : U16} (hpage : page.toNat ≠ 0) :
    (predUnit p block page).1 = block ∧ (predUnit p block page).2.toNat + 1 = page.toNat := by
  have hlt := page.isLt
  simp only [predUnit, if_neg hpage, BitVec.toNat_ofNat, true_and]
  omega

/-- The unit before a page of the array is the row before it. -/
theorem predUnit_row {p : Profile} {block : U32} {page : U16} (hppb : p.pagesPerBlock ≤ 65535)
    (hpage : page.toNat < p.pagesPerBlock) (hpos : block.toNat * p.pagesPerBlock + page.toNat ≠ 0) :
    (predUnit p block page).1.toNat * p.pagesPerBlock + (predUnit p block page).2.toNat + 1 =
        block.toNat * p.pagesPerBlock + page.toNat ∧
      (predUnit p block page).2.toNat < p.pagesPerBlock := by
  by_cases hzero : page.toNat = 0
  · have hblock : block.toNat ≠ 0 := fun h => hpos (by rw [h, hzero, Nat.zero_mul])
    obtain ⟨hpred, hlast⟩ := predUnit_first (by omega) hppb hzero hblock
    rw [← hpred, Nat.succ_mul]
    omega
  · obtain ⟨hpred, hprev⟩ := predUnit_later p block hzero
    rw [hpred]
    omega

/-- What `PAUSE` does with a unit done (R288). -/
theorem onPause_saves {s : State} {p : Profile} (hdone : s.op.opDone ≠ 0) (hheld : heldProfile s = some p)
    (hpower : s.env.power = .on) :
    onPause s =
      .next
        { s with
          seq := .paused
          tx := s.tx ++ ackFrame s.cfg s.cfg.commands.pause 0
          cp :=
            { valid := true, kind := s.op.opKind, block := (predUnit p s.op.curBlock s.op.curPage).1
              page := (predUnit p s.op.curBlock s.op.curPage).2, hash := s.op.lastHash, token := s.ses.sessionToken } } := by
  have hne : s.op.opDone.toNat ≠ 0 := fun h => hdone (BitVec.eq_of_toNat_eq h)
  have hsave := save_on (s := { s with seq := .paused }) hpower
  simp only [onPause, if_neg hne, withProfile, hheld, saveProgress, hsave]
  rfl

/-- Settles O30: by the invariant of R21 the cursor is at `OP_START + OP_DONE`, and `PAUSE` saves the unit before it. -/
theorem pauseSavesTheLastCompletedUnit : Obligations.PauseSavesTheLastCompletedUnit := by
  intro s hs hrunning
  obtain ⟨hregs, hpower, -⟩ := (inv_iff s).1 hs
  obtain ⟨p, hheld, hplace, -⟩ := hregs.operation (active_of_running hrunning)
  obtain ⟨-, -, hppb, -, -, -, hppb', -⟩ := Profile.ok_bounds (heldProfile_ok hregs.config hheld)
  have hexec : exec .pause s = onPause s := accepted_of_accept _ (if_pos hrunning)
  rw [hexec]
  by_cases hdone : s.op.opDone = 0
  · exact ⟨_, if_pos (by rw [hdone]; rfl), rfl, fun _ => rfl, fun h => absurd hdone h⟩
  · refine ⟨_, onPause_saves hdone hheld hpower, rfl, fun h => absurd h hdone, fun _ => ⟨p, hheld, rfl, rfl, rfl, rfl, ?_⟩⟩
    have hpos : s.op.opDone.toNat ≠ 0 := fun h => hdone (BitVec.eq_of_toNat_eq h)
    rcases hplace with hpage | ⟨hkind, hcur, hzero, -⟩
    · obtain ⟨-, hcur, hlt, -⟩ := id hpage
      rw [if_neg (hpage.not_erase hregs.commands), ← hcur]
      exact predUnit_row hppb' hlt (by rw [cursorRow] at hcur; omega)
    · rw [if_pos hkind, ← hcur]
      exact predUnit_first hppb hppb' (by rw [hzero]; rfl) (by omega)

end Sys2Proof.Machine
end

section
/-! SUPPORT. From a step to the instruction it runs (spec/46_sequencer.md R272 to R274): the last byte of a host frame, and an
issue turn. -/

namespace Sys2Proof.Machine

theorem step_of_ok {s : State} (h : s.cfg.ok = true) : step s = takeTurn (nextTurn s) (popTurn s) := if_pos h

/-- With no turn scheduled the engine moves. -/
theorem step_of_no_schedule {s : State} (h : s.cfg.ok = true) (hturns : s.env.schedule = []) : step s = engineStep s := by
  have htail : s.env.schedule.tail = s.env.schedule := by rw [hturns]; rfl
  have hpop : popTurn s = s := by rw [popTurn, htail]
  rw [step_of_ok h, nextTurn, hturns, hpop]
  rfl

theorem step_of_issue {s : State} {sp : Space} {bytes : List Byte} {turns : List Turn} (h : s.cfg.ok = true)
    (hturns : s.env.schedule = .issue sp bytes :: turns) :
    step s = issue sp bytes { s with env := { s.env with schedule := turns } } := by
  rw [step_of_ok h, nextTurn, popTurn, hturns]
  rfl

theorem engineStep_of_byte {s : State} {b : Byte} {rest : List Byte} (h : s.rxq = b :: rest) :
    engineStep s = serviceResult (rxByte s.cfg s.dec b).1 { s with rxq := rest, dec := (rxByte s.cfg s.dec b).2 } := by
  rw [engineStep, h]
  rfl

/-- The last byte of a frame is the one that is answered (R146 to R148). -/
theorem rxByte_last {c : Config} {d : Decoder} {cmd last : Byte} {p init : List Byte} (hs : d.rxState = .hunt0)
    (hmax : p.length ≤ c.maxPayload) (hp : p.length < 2 ^ 32) (hframe : encodeFrame c cmd p = init ++ [last]) :
    (rxByte c (rxBytes c d init).2 last).1 = .frame cmd p ∧ (rxByte c (rxBytes c d init).2 last).2.rxState = .hunt0 := by
  have hall := rxBytes_encodeFrame hs hmax hp (cmd := cmd)
  rw [hframe, rxBytes_append] at hall
  obtain ⟨hresults, hend⟩ := Prod.mk.inj hall
  obtain ⟨-, hlast⟩ := List.append_inj' hresults rfl
  exact ⟨List.head_eq_of_cons_eq hlast, congrArg Decoder.rxState hend⟩

/-- A frame that carries a command is dispatched to it. -/
theorem dispatchFrame_command {i : Instr} {s : State} (hc : s.cfg.commandsDistinct = true) (h : i.space = .command) :
    dispatchFrame (i.codeByte s.cfg) i.operands s = exec i s := by
  rw [dispatchFrame, decodeCommand_operands hc h]

theorem issue_encode {i : Instr} {s : State} (hc : s.cfg.codesDistinct = true) (hwf : i.wf s.cfg = true) :
    issue i.space (encode s.cfg i) s = exec i s := by
  rw [issue, decodeOfEncodeIsTheInstruction s.cfg i hc hwf]

/-- Settles O39: the decoder answers the frame at its last byte, and what it answers decodes to the instruction. -/
theorem stepRunsTheDecodedInstruction : Obligations.StepRunsTheDecodedInstruction := by
  intro s i hok hwf hc
  refine ⟨fun d0 init last rest hsp hs henc hturns hrxq hdec => ?_, fun turns hturns => ?_⟩
  · have hcommands : s.cfg.commandsDistinct = true := by
      simp only [Config.codesDistinct, Bool.and_eq_true] at hc
      exact hc.1.1
    obtain ⟨hmax, hlen⟩ := (wf_iff_operands_fit (.inl hsp) s.cfg).1 hwf
    rw [encode_of_framed (.inl hsp)] at henc
    obtain ⟨hanswer, hhunt⟩ := rxByte_last hs hmax hlen henc
    rw [← hdec] at hanswer hhunt
    refine ⟨_, hhunt, ?_⟩
    rw [step_of_no_schedule hok hturns, engineStep_of_byte hrxq, hanswer]
    exact dispatchFrame_command (s := { s with rxq := rest, dec := (rxByte s.cfg s.dec last).2 }) hcommands hsp
  · rw [step_of_issue hok hturns]
    exact issue_encode (s := { s with env := { s.env with schedule := turns } }) hc hwf

end Sys2Proof.Machine
end

section
/-! SUPPORT. The units of an operation (spec/46_sequencer.md R282 to R286): a transaction that the die answers in time, what one
attempt at a unit does, and the end of the unit. -/

namespace Sys2Proof.Machine

/-! ## Where a unit can be counted (R25, R283) -/

/-- The cursor is inside the array and the supply is on: what `finishUnit_spec` asks. -/
structure UnitReady (p : Profile) (s : State) : Prop where
  power : s.env.power = .on
  ppb_pos : 1 ≤ p.pagesPerBlock
  ppb_le : p.pagesPerBlock ≤ 65535
  block : s.op.curBlock.toNat + 1 < 2 ^ 32
  page : s.op.curPage.toNat < p.pagesPerBlock
  erase : s.op.opKind = s.cfg.commands.erase → s.op.curPage = 0

/-- Work that leaves the operation where it stands, and the supply on. -/
theorem UnitReady.of_samePlace {p : Profile} {s t : State} (h : UnitReady p s) (hpower : t.env.power = .on)
    (hcfg : t.cfg = s.cfg) (hop : SamePlace s.op t.op) : UnitReady p t := by
  refine ⟨hpower, h.ppb_pos, h.ppb_le, ?_, ?_, ?_⟩
  · rw [hop]
    exact h.block
  · rw [hop]
    exact h.page
  · rw [hop, hcfg]
    exact h.erase

/-- The cursor of a Read or Write with units left. -/
theorem PageOpOk.unitReady {p : Profile} {s : State} (h : PageOpOk p s) (hok : s.cfg.ok = true)
    (hc : s.cfg.commandsDistinct = true) (hpower : s.env.power = .on) (hheld : heldProfile s = some p)
    (hleft : s.op.opDone.toNat < s.op.opTotal.toNat) : UnitReady p s := by
  obtain ⟨-, -, hppb, -, -, hrows, hppb', -⟩ := Profile.ok_bounds (heldProfile_ok hok hheld)
  have hkind := h.not_erase hc
  obtain ⟨-, hcur, hpage, hrange⟩ := h
  rw [cursorRow] at hcur
  have hmul : s.op.curBlock.toNat ≤ s.op.curBlock.toNat * p.pagesPerBlock := Nat.le_mul_of_pos_right _ hppb
  exact ⟨hpower, hppb, hppb', by omega, hpage, fun h => absurd h hkind⟩

/-- The cursor of an Erase with units left. -/
theorem EraseOpOk.unitReady {p : Profile} {s : State} (h : EraseOpOk p s) (hok : s.cfg.ok = true)
    (hpower : s.env.power = .on) (hheld : heldProfile s = some p)
    (hleft : s.op.opDone.toNat < s.op.opTotal.toNat) : UnitReady p s := by
  have hprof := heldProfile_ok hok hheld
  obtain ⟨-, -, hppb, -, -, hrows, hppb', -⟩ := Profile.ok_bounds hprof
  have hblocks := Profile.blockCount_le_rows hprof
  obtain ⟨-, hcur, hzero, hrange⟩ := h
  exact ⟨hpower, hppb, hppb', by omega, by rw [hzero]; exact hppb, fun _ => hzero⟩

/-- The end of a unit (R283): the record is the checkpoint rule's, and no answer is taken. -/
theorem UnitReady.finishUnit_eq {p : Profile} {s : State} (h : UnitReady p s) :
    ∃ cp env,
      finishUnit p s =
          { s with
            seq := seqAfterUnit s.seq s.op, op := countedOp s.cfg p s.op, cp := cp, tx := s.tx ++ unitFrames s.cfg s.op
            env := env } ∧
        CheckpointAfterUnit p s s.op.lastHash cp ∧ env = { s.env with drawn := env.drawn } := by
  obtain ⟨hstate, hcp, hpower, hdraws, hschedule⟩ := finishUnit_spec h.power h.ppb_pos h.ppb_le h.block h.page h.erase
  have hpower' : (finishUnit p s).env.power = s.env.power := hpower.trans h.power.symm
  refine ⟨_, _, hstate, hcp, ?_⟩
  simp only [← hdraws, ← hschedule, ← hpower']

/-- The tail of a Write unit (R284). -/
theorem UnitReady.finishWrite_eq {p : Profile} {s : State} (h : UnitReady p s) (x : List Byte) :
    ∃ cp env,
      finishWrite p x s =
          { s with
            seq := seqAfterUnit s.seq s.op
            op :=
              { countedOp s.cfg p s.op with
                lastHash := chunkHash s.cfg x
                bytesDone := s.op.bytesDone + BitVec.ofNat 64 p.unitSize
                frameErrCnt := 0 }
            cp := cp
            tx := s.tx ++ unitFrames s.cfg s.op
            env := env } ∧
        CheckpointAfterUnit p s (chunkHash s.cfg x) cp := by
  have hready : UnitReady p { updateChunk p x s with op := { (updateChunk p x s).op with frameErrCnt := 0 } } :=
    h.of_samePlace h.power rfl rfl
  obtain ⟨cp, env, hstate, hcp, -⟩ := hready.finishUnit_eq
  exact ⟨cp, env, hstate, hcp⟩

/-! ## Transactions that the die answers in time (R67 to R69, R199) -/

/-- The state once a program or an erase that left the array as `m` is over. -/
def afterWrite (m : Memory) (status : Byte) (tr : List BusCycle) (env : Env) (s : State) : State :=
  { s with die := { s.die with arr := m, status := status, latch := .idle }, trace := tr, env := env }

/-- As `readRetry_of_ready`, with the answers that are left. -/
theorem readRetry_ready {s : State} {p : Profile} {row : Nat} (hok : s.cfg.ok = true) (hrow : RowOk p row s)
    (hready : (draw s).1 < s.cfg.readyTimeoutRead) :
    ∃ tr, readRetry row p.unitSize s = (.ok (readRow s.die.arr row p.unitSize), afterRead tr (draw s).2.env s) := by
  have hread := memRead_spec hok hrow le_rfl
  rw [if_pos hready] at hread
  exact ⟨_, (readRetry_of (by rw [hread]; nofun)).trans hread⟩

/-- A program that passes is not attempted again. -/
theorem writeRetry_passed {s : State} {p : Profile} {row : Nat} {x : List Byte} (hok : s.cfg.ok = true) (hrow : RowOk p row s)
    (hlen : x.length = p.unitSize) (hpower : s.env.power = .on) (hready : (draw s).1 < s.cfg.readyTimeoutProg)
    (hpass : (draw (draw s).2).1 % 2 = 0) :
    ∃ st tr, writeRetry row x s =
      (.ok (), afterWrite (programRow s.die.arr row x) st tr (draw (draw s).2).2.env s) := by
  obtain ⟨hresult, -, -, hstate⟩ := memWrite_spec hok hrow hlen hpower
  rw [if_pos hready, if_neg (by omega)] at hresult
  exact ⟨_, _, (writeRetry_of (by rw [hresult]; nofun)).trans (Prod.ext hresult (hstate hready hpass))⟩

/-- An erase that passes is not attempted again. -/
theorem eraseRetry_passed {s : State} {p : Profile} {block : Nat} (hok : s.cfg.ok = true)
    (hrow : RowOk p (block * p.pagesPerBlock) s) (hpower : s.env.power = .on) (hready : (draw s).1 < s.cfg.readyTimeoutErase)
    (hpass : (draw (draw s).2).1 % 2 = 0) :
    ∃ st tr, eraseRetry p block s =
      (.ok (), afterWrite (eraseRows s.die.arr (block * p.pagesPerBlock) p.pagesPerBlock p.unitSize) st tr
        (draw (draw s).2).2.env s) := by
  obtain ⟨hresult, -, -, hstate⟩ := memErase_spec hok hrow hpower
  rw [if_pos hready, if_neg (by omega)] at hresult
  exact ⟨_, _, (eraseRetry_of (by rw [hresult]; nofun)).trans (Prod.ext hresult (hstate hready hpass))⟩

theorem RowOk.of_afterWrite {p : Profile} {row : Nat} {s : State} (h : RowOk p row s) (m : Memory) (st : Byte)
    (tr : List BusCycle) (env : Env) : RowOk p row (afterWrite m st tr env s) :=
  ⟨h.held, h.agrees, h.inRange⟩

theorem RowOk.of_afterRead {p : Profile} {row : Nat} {s : State} (h : RowOk p row s) (tr : List BusCycle) (env : Env) :
    RowOk p row (afterRead tr env s) :=
  ⟨h.held, h.agrees, h.inRange⟩

/-! ## One attempt at a Write unit (R285) -/

section Attempt

variable {p : Profile} {row : Nat} {x y : List Byte} {s u v : State}

theorem writeOne_statusFail (k : Nat) (hw : writeRetry row x s = (.statusFail, u)) :
    writeOne p row x k s = (some .nandStatusFail, u) := by
  rw [writeOne, hw]

theorem writeOne_unverified (k : Nat) (hw : writeRetry row x s = (.ok (), u)) (hv : s.op.optVerify = false) :
    writeOne p row x k s = (none, u) := by
  rw [writeOne, hw]
  exact if_pos hv

theorem writeOne_verified (k : Nat) (hw : writeRetry row x s = (.ok (), u)) (hv : s.op.optVerify = true)
    (hr : readRetry row p.unitSize u = (.ok x, v)) : writeOne p row x k s = (none, v) := by
  rw [writeOne, hw]
  simp only [hv, Bool.true_eq_false, if_false, hr, if_true]

theorem writeOne_exhausted (hw : writeRetry row x s = (.ok (), u)) (hv : s.op.optVerify = true)
    (hr : readRetry row p.unitSize u = (.ok y, v)) (hne : y ≠ x) : writeOne p row x 0 s = (some .verify, v) := by
  rw [writeOne, hw]
  simp only [hv, Bool.true_eq_false, if_false, hr, hne]

theorem writeOne_again (k : Nat) (hw : writeRetry row x s = (.ok (), u)) (hv : s.op.optVerify = true)
    (hr : readRetry row p.unitSize u = (.ok y, v)) (hne : y ≠ x) : writeOne p row x (k + 1) s = writeOne p row x k v := by
  rw [writeOne, hw]
  simp only [hv, Bool.true_eq_false, if_false, hr, hne]

end Attempt

/-- A program that passes, and the read-back of its row. -/
theorem attempt_passed {s : State} {p : Profile} {row : Nat} {x : List Byte} (hok : s.cfg.ok = true) (hrow : RowOk p row s)
    (hlen : x.length = p.unitSize) (hpower : s.env.power = .on) (hready : (draw s).1 < s.cfg.readyTimeoutProg)
    (hpass : (draw (draw s).2).1 % 2 = 0) (hread : (draw (draw (draw s).2).2).1 < s.cfg.readyTimeoutRead) :
    ∃ u st tr, writeRetry row x s = (.ok (), u) ∧
      readRetry row p.unitSize u =
        (.ok (readRow (programRow s.die.arr row x) row p.unitSize),
          afterWrite (programRow s.die.arr row x) st tr (draw (draw (draw s).2).2).2.env s) := by
  obtain ⟨st, tr, hw⟩ := writeRetry_passed hok hrow hlen hpower hready hpass
  have hdraw := draw_congr (s := (draw (draw s).2).2)
    (t := afterWrite (programRow s.die.arr row x) st tr (draw (draw s).2).2.env s) rfl
  obtain ⟨tr', hr⟩ := readRetry_ready (s := afterWrite (programRow s.die.arr row x) st tr (draw (draw s).2).2.env s) hok
    (hrow.of_afterWrite _ _ _ _) (by rw [hdraw]; exact hread)
  rw [hdraw] at hr
  exact ⟨_, st, tr', hw, hr⟩

/-- A unit that the die takes at the first attempt: it is programmed, and under verify it reads back as sent. -/
theorem writeOne_passed {s : State} {p : Profile} {row : Nat} {x : List Byte} (k : Nat) (hok : s.cfg.ok = true)
    (hrow : RowOk p row s) (hlen : x.length = p.unitSize) (hpower : s.env.power = .on)
    (hready : (draw s).1 < s.cfg.readyTimeoutProg) (hpass : (draw (draw s).2).1 % 2 = 0)
    (hverify : s.op.optVerify = true →
      (draw (draw (draw s).2).2).1 < s.cfg.readyTimeoutRead ∧
        ∀ j b, x[j]? = some b → cellByte s.die.arr (cellAddr row j) &&& b = b) :
    ∃ st tr env, env.power = .on ∧
      writeOne p row x k s = (none, afterWrite (programRow s.die.arr row x) st tr env s) := by
  by_cases hv : s.op.optVerify = true
  · obtain ⟨hread, hbits⟩ := hverify hv
    obtain ⟨u, st, tr, hw, hr⟩ := attempt_passed hok hrow hlen hpower hready hpass hread
    rw [← hlen, readRow_programRow hbits, hlen] at hr
    exact ⟨st, tr, _, by simpa using hpower, writeOne_verified k hw hv hr⟩
  · obtain ⟨st, tr, hw⟩ := writeRetry_passed hok hrow hlen hpower hready hpass
    exact ⟨st, tr, _, by simpa using hpower, writeOne_unverified k hw (by simpa using hv)⟩

/-! ## Write units (R284) -/

theorem writeUnit_of_failed {p : Profile} {x : List Byte} {s u : State} {cause : Cause}
    (hskip : s.op.optSkipBlank = false ∨ ∃ b ∈ x, b ≠ 0xFF)
    (hw : writeOne p (cursorRow p s) x s.cfg.verifyRetryMax s = (some cause, u)) : writeUnit p x s = fail cause u := by
  simp only [writeUnit, skips_false hskip, Bool.false_eq_true, if_false, hw]

theorem writeUnit_of_passed {p : Profile} {x : List Byte} {s u : State}
    (hskip : s.op.optSkipBlank = false ∨ ∃ b ∈ x, b ≠ 0xFF)
    (hw : writeOne p (cursorRow p s) x s.cfg.verifyRetryMax s = (none, u)) : writeUnit p x s = finishWrite p x u := by
  simp only [writeUnit, skips_false hskip, Bool.false_eq_true, if_false, hw]

theorem writeUnit_skips {p : Profile} {x : List Byte} {s : State} (hskip : s.op.optSkipBlank = true) (hx : ∀ b ∈ x, b = 0xFF) :
    writeUnit p x s = finishWrite p x s := by
  have hblank : allFf x = true := by simpa [allFf, erased] using hx
  rw [writeUnit, if_pos (by rw [hskip, hblank]; rfl)]

/-- In a running Write a legal unit is `on_data` of its bytes. -/
theorem exec_legal_unit {i : Instr} {payload x : List Byte} {p : Profile} {s : State} (hi : unitPayload i = some payload)
    (hrunning : s.seq = .running) (hkind : s.op.opKind = s.cfg.commands.write) (hheld : heldProfile s = some p)
    (hunit : decodeUnit p.unitSize payload = some x) : exec i s = .next (writeUnit p x s) :=
  (exec_unit hi hrunning hkind).trans (onData_legal hheld hunit)

/-- Settles O37: the unit is skipped, and the rest is the tail of a Write unit. -/
theorem blankUnitIsNotProgrammed : Obligations.BlankUnitIsNotProgrammed := by
  intro i payload x p s hi hok hc hpower hrunning hplace hkind hleft hheld hunit hskip hx
  obtain ⟨cp, env, hfinish, hcp⟩ := (hplace.unitReady hok hc hpower hheld hleft).finishWrite_eq x
  have hexec := exec_legal_unit hi hrunning hkind hheld hunit
  rw [writeUnit_skips hskip hx, hfinish] at hexec
  exact ⟨_, hexec, rfl, hcp⟩

/-- Settles O36: the first attempt programs the row, and the rest is the tail of a Write unit. -/
theorem dataUnitIsProgrammed : Obligations.DataUnitIsProgrammed := by
  intro i payload x p s hi hok hc hpower hrunning hplace hkind hleft hrow hunit hskip hready hpass hverify
  have hlen := decodeUnit_length hunit
  have hat := hplace.unitReady hok hc hpower hrow.held hleft
  obtain ⟨st, tr, env, hpower', hw⟩ := writeOne_passed s.cfg.verifyRetryMax hok hrow hlen hpower hready hpass hverify
  have hat' : UnitReady p (afterWrite (programRow s.die.arr (cursorRow p s) x) st tr env s) :=
    hat.of_samePlace hpower' rfl rfl
  obtain ⟨cp, env', hfinish, hcp⟩ := hat'.finishWrite_eq x
  have hexec := exec_legal_unit hi hrunning hkind hrow.held hunit
  rw [writeUnit_of_passed hskip hw, hfinish] at hexec
  refine ⟨_, hexec, rfl, hcp, hlen ▸ sameOutside_programRow s.die.arr (cursorRow p s) x, fun j b hj => ?_⟩
  obtain ⟨hlt, rfl⟩ := List.getElem?_eq_some_iff.1 hj
  exact cellByte_programRow s.die.arr (cursorRow p s) x j hlt

/-! ## Failed programs (R366, R367) -/

/-- The end of an operation after work on the bus that left the latch idle. -/
theorem fail_of_busOnly {s u : State} (cause : Cause) (h : BusOnly s u) (hlatch : u.die.latch = .idle) :
    fail cause u =
      { s with
        seq := .failed
        op := { s.op with cause := cause.code }
        tx := s.tx ++ failedFrame s.cfg cause.code s.op.opKind
        die := { s.die with arr := u.die.arr, status := u.die.status, latch := .idle }
        trace := u.trace
        env := u.env } := by
  have hdie : u.die = { s.die with arr := u.die.arr, status := u.die.status, latch := .idle } := by
    rw [← hlatch]
    exact h.dieFixed
  rw [← hdie, h.registers]
  rfl

/-- A program whose status byte reports failure is not attempted again, and only its row may have moved. -/
theorem writeRetry_failed {s : State} {p : Profile} {row : Nat} {x : List Byte} (hok : s.cfg.ok = true) (hrow : RowOk p row s)
    (hlen : x.length = p.unitSize) (hpower : s.env.power = .on) (hready : (draw s).1 < s.cfg.readyTimeoutProg)
    (hfail : (draw (draw s).2).1 % 2 = 1) :
    ∃ u, writeRetry row x s = (.statusFail, u) ∧ BusOnly s u ∧ u.die.latch = .idle ∧
      SameOutside row 1 p.unitSize s.die.arr u.die.arr := by
  obtain ⟨hresult, hsame, -, -⟩ := memWrite_spec hok hrow hlen hpower
  rw [if_pos hready, if_pos hfail] at hresult
  refine ⟨_, (writeRetry_of (by rw [hresult]; nofun)).trans (Prod.ext hresult rfl), busOnly_memWrite row x s,
    memWrite_latch row x s, hsame⟩

/-- Some bit of the unit is to be set over a programmed 0. -/
def Unwritable (m : Memory) (row : Nat) (x : List Byte) : Prop :=
  ∃ j b, x[j]? = some b ∧ cellByte m (cellAddr row j) &&& b ≠ b

/-- Programming the row does not make the bit 1. -/
theorem Unwritable.of_programmed {m : Memory} {row : Nat} {x : List Byte} (h : Unwritable m row x) :
    Unwritable (programRow m row x) row x := by
  obtain ⟨j, b, hj, hne⟩ := h
  obtain ⟨hlt, rfl⟩ := List.getElem?_eq_some_iff.1 hj
  refine ⟨j, _, hj, ?_⟩
  rwa [cellByte_programRow m row x j hlt, BitVec.and_assoc, BitVec.and_self]

/-- So the row does not read back as sent. -/
theorem Unwritable.readRow_ne {m : Memory} {row : Nat} {x : List Byte} (h : Unwritable m row x) :
    readRow (programRow m row x) row x.length ≠ x := by
  obtain ⟨j, b, hj, hne⟩ := h
  obtain ⟨hlt, rfl⟩ := List.getElem?_eq_some_iff.1 hj
  intro heq
  have hcell := readRow_getElem? (programRow m row x) row x.length j hlt
  rw [heq, hj, cellByte_programRow m row x j hlt] at hcell
  exact hne (Option.some.inj hcell).symm

/-- An attempt whose three answers are at hand: a ready wait and a pass, then a ready read. -/
def AttemptPasses (c : Config) (a : Nat × Nat × Nat) : Prop :=
  a.1 < c.readyTimeoutProg ∧ a.2.1 % 2 = 0 ∧ a.2.2 < c.readyTimeoutRead

/-- The answers of the attempts, in order. -/
def attemptDraws (attempts : List (Nat × Nat × Nat)) : List Nat := (attempts.map (fun a => [a.1, a.2.1, a.2.2])).flatten

theorem attempt_of_draws {s : State} {p : Profile} {row : Nat} {x : List Byte} {a : Nat × Nat × Nat} {rest : List Nat}
    (hok : s.cfg.ok = true) (hrow : RowOk p row s) (hlen : x.length = p.unitSize) (hpower : s.env.power = .on)
    (ha : AttemptPasses s.cfg a) (hdraws : s.env.draws = a.1 :: a.2.1 :: a.2.2 :: rest) :
    ∃ u st tr, writeRetry row x s = (.ok (), u) ∧
      readRetry row p.unitSize u =
        (.ok (readRow (programRow s.die.arr row x) row p.unitSize),
          afterWrite (programRow s.die.arr row x) st tr { s.env with draws := rest } s) := by
  obtain ⟨hready, hpass, hread⟩ := ha
  have h1 := draw_cons hdraws
  have h2 := draw_cons (s := (draw s).2) (d := a.2.1) (r := a.2.2 :: rest) (by rw [h1])
  have h3 := draw_cons (s := (draw (draw s).2).2) (d := a.2.2) (r := rest) (by rw [h2])
  have henv : (draw (draw (draw s).2).2).2.env = { s.env with draws := rest } := by rw [h3, h2, h1]
  rw [← henv]
  exact attempt_passed hok hrow hlen hpower (by rw [h1]; exact hready) (by rw [h2]; exact hpass) (by rw [h3]; exact hread)

/-- A unit that cannot read back as sent is programmed once for every attempt, and then fails (R285, R367). -/
theorem writeOne_unwritable {p : Profile} {row : Nat} {x : List Byte} {rest : List Nat} (k : Nat)
    {attempts : List (Nat × Nat × Nat)} {s : State} (hok : s.cfg.ok = true) (hrow : RowOk p row s)
    (hlen : x.length = p.unitSize) (hpower : s.env.power = .on) (hv : s.op.optVerify = true)
    (hcell : Unwritable s.die.arr row x) (hcount : attempts.length = k + 1)
    (hanswers : ∀ a ∈ attempts, AttemptPasses s.cfg a) (hdraws : s.env.draws = attemptDraws attempts ++ rest) :
    ∃ m st tr, SameOutside row 1 p.unitSize s.die.arr m ∧
      writeOne p row x k s = (some .verify, afterWrite m st tr { s.env with draws := rest } s) := by
  induction k generalizing s attempts with
  | zero =>
    obtain ⟨a, rfl⟩ := List.length_eq_one_iff.1 hcount
    obtain ⟨u, st, tr, hw, hr⟩ := attempt_of_draws hok hrow hlen hpower (hanswers a (by simp)) (rest := rest) hdraws
    have hne := hcell.readRow_ne
    rw [hlen] at hne
    exact ⟨_, st, tr, hlen ▸ sameOutside_programRow s.die.arr row x, writeOne_exhausted hw hv hr hne⟩
  | succ k ih =>
    obtain ⟨a, more, rfl⟩ := List.exists_cons_of_length_eq_add_one hcount
    obtain ⟨ha, hmore⟩ := List.forall_mem_cons.1 hanswers
    obtain ⟨u, st, tr, hw, hr⟩ := attempt_of_draws hok hrow hlen hpower ha (rest := attemptDraws more ++ rest) hdraws
    have hne := hcell.readRow_ne
    rw [hlen] at hne
    obtain ⟨m, st', tr', hsame, hagain⟩ := ih (attempts := more)
      (s := afterWrite (programRow s.die.arr row x) st tr { s.env with draws := attemptDraws more ++ rest } s)
      hok (hrow.of_afterWrite _ _ _ _) hpower hv hcell.of_programmed (by simpa using hcount) hmore rfl
    refine ⟨m, st', tr', (hlen ▸ sameOutside_programRow s.die.arr row x).trans hsame, ?_⟩
    rw [writeOne_again k hw hv hr hne, hagain]
    rfl

/-- Settles O38: a status failure ends the unit at its first attempt, a row that cannot read back as sent after the last. -/
theorem failedProgramsEndTheWrite : Obligations.FailedProgramsEndTheWrite := by
  intro i payload x p s hi hok hpower hrunning hkind hrow hunit hskip
  have hlen := decodeUnit_length hunit
  rw [exec_legal_unit hi hrunning hkind hrow.held hunit, ← hkind]
  refine ⟨fun hready hfail => ?_, fun attempts rest hv hcell hcount hanswers hdraws => ?_⟩
  · obtain ⟨u, hw, hbus, hlatch, hsame⟩ := writeRetry_failed hok hrow hlen hpower hready hfail
    rw [writeUnit_of_failed hskip (writeOne_statusFail _ hw), fail_of_busOnly _ hbus hlatch]
    exact ⟨_, rfl, rfl, hsame⟩
  · obtain ⟨m, st, tr, hsame, hw⟩ := writeOne_unwritable _ hok hrow hlen hpower hv hcell hcount hanswers hdraws
    rw [writeUnit_of_failed hskip hw]
    exact ⟨_, rfl, rfl, hsame⟩

/-! ## Read units (R282) -/

theorem engineStep_of_running_read {p : Profile} {s : State} (hrxq : s.rxq = []) (hrunning : s.seq = .running)
    (hkind : s.op.opKind = s.cfg.commands.read) (hheld : heldProfile s = some p) : engineStep s = .next (readUnit p s) := by
  simp only [engineStep, hrxq, hrunning, hkind, and_self, if_true, withProfile, hheld]

theorem readUnit_of_ok {p : Profile} {s u : State} {x : List Byte} (h : readRetry (cursorRow p s) p.unitSize s = (.ok x, u)) :
    readUnit p s =
      finishUnit p (emit (.rspData (encodeUnit s.cfg.maxRun x s.op.optCompress s.op.optSkipBlank)) (updateChunk p x u)) := by
  simp only [readUnit, h]

/-- Settles O42: the row is read, sent and hashed, and the rest is the end of a unit. -/
theorem readUnitSendsTheRow : Obligations.ReadUnitSendsTheRow := by
  rintro p _ s hok hc hpower hrxq hrunning hplace hkind hleft hrow hready rfl
  have hat := hplace.unitReady hok hc hpower hrow.held hleft
  obtain ⟨tr, hread⟩ := readRetry_ready hok hrow hready
  have hat' : UnitReady p (emit (.rspData (encodeUnit s.cfg.maxRun (readRow s.die.arr (cursorRow p s) p.unitSize)
      s.op.optCompress s.op.optSkipBlank))
      (updateChunk p (readRow s.die.arr (cursorRow p s) p.unitSize) (afterRead tr (draw s).2.env s))) :=
    hat.of_samePlace ((draw_power s).trans hpower) rfl rfl
  obtain ⟨cp, env, hfinish, hcp, -⟩ := hat'.finishUnit_eq
  have hstep := engineStep_of_running_read hrxq hrunning hkind hrow.held
  rw [readUnit_of_ok hread, hfinish] at hstep
  exact ⟨_, hstep, rfl, hcp⟩

/-! ## Erase units (R286) -/

theorem engineStep_of_running_erase {p : Profile} {s : State} (hc : s.cfg.commandsDistinct = true) (hrxq : s.rxq = [])
    (hrunning : s.seq = .running) (hkind : s.op.opKind = s.cfg.commands.erase) (hheld : heldProfile s = some p) :
    engineStep s = .next (eraseUnit p s) := by
  have hne : ¬s.cfg.commands.erase = s.cfg.commands.read := (kinds_ne hc).2.1.symm
  simp only [engineStep, hrxq, hrunning, hkind, hne, and_false, if_false, and_self, if_true, withProfile, hheld]

/-- Every page of the erased block reads back blank. -/
theorem blankCheck_blank {p : Profile} {row : Nat} {rest : List Nat} (n : Nat) {reads : List Nat} {s : State}
    (hok : s.cfg.ok = true) (hrow : ∀ r, row ≤ r → r < row + n → RowOk p r s)
    (hblank : ∀ r, row ≤ r → r < row + n → allFf (readRow s.die.arr r p.unitSize) = true) (hcount : reads.length = n)
    (hready : ∀ b ∈ reads, b < s.cfg.readyTimeoutRead) (hdraws : s.env.draws = reads ++ rest) (hlatch : s.die.latch = .idle) :
    ∃ tr, blankCheck p.unitSize row n s = (some true, { s with trace := tr, env := { s.env with draws := rest } }) := by
  induction n generalizing row reads s with
  | zero =>
    obtain rfl := List.length_eq_zero_iff.1 hcount
    refine ⟨s.trace, ?_⟩
    rw [blankCheck, ← show s.env.draws = rest from hdraws]
  | succ n ih =>
    obtain ⟨b, more, rfl⟩ := List.exists_cons_of_length_eq_add_one hcount
    obtain ⟨hb, hmore⟩ := List.forall_mem_cons.1 hready
    have hdraw := draw_cons (s := s) (d := b) (r := more ++ rest) hdraws
    obtain ⟨tr, hread⟩ := readRetry_ready hok (hrow row le_rfl (by omega)) (by rw [hdraw]; exact hb)
    rw [hdraw] at hread
    obtain ⟨tr', hrest⟩ := ih (row := row + 1) (reads := more) (s := afterRead tr { s.env with draws := more ++ rest } s) hok
      (fun r hlo hhi => (hrow r (by omega) (by omega)).of_afterRead _ _) (fun r hlo hhi => hblank r (by omega) (by omega))
      (by simpa using hcount) hmore rfl rfl
    refine ⟨tr', ?_⟩
    rw [blankCheck]
    simp only [hread, hblank row le_rfl (by omega), if_true, hrest]
    rw [afterRead, ← hlatch]

theorem eraseOne_unverified {p : Profile} {block : Nat} {s u : State} (k : Nat) (he : eraseRetry p block s = (.ok (), u))
    (hv : s.op.optVerify = false) : eraseOne p block k s = (none, u) := by
  rw [eraseOne, he]
  exact if_pos hv

theorem eraseOne_verified {p : Profile} {block : Nat} {s u v : State} (k : Nat) (he : eraseRetry p block s = (.ok (), u))
    (hv : s.op.optVerify = true)
    (hcheck : blankCheck p.unitSize (block * p.pagesPerBlock) p.pagesPerBlock u = (some true, v)) :
    eraseOne p block k s = (none, v) := by
  rw [eraseOne, he]
  simp only [hv, Bool.true_eq_false, if_false, hcheck]

theorem eraseUnit_of_passed {p : Profile} {s u : State}
    (h : eraseOne p s.op.curBlock.toNat s.cfg.verifyRetryMax s = (none, u)) : eraseUnit p s = finishUnit p u := by
  simp only [eraseUnit, h]

/-- An erased row reads as all `0xFF` (R69). -/
theorem allFf_readRow_eraseRows {m : Memory} {row n u r : Nat} (hu : u ≤ 65536) (hlo : row ≤ r) (hhi : r < row + n) :
    allFf (readRow (eraseRows m row n u) r u) = true := by
  simp only [allFf, readRow, List.all_map, List.all_eq_true, List.mem_range, Function.comp_apply, beq_iff_eq]
  intro i hi
  rw [cellByte, read_eraseRows n m row u r i hi hu hlo hhi, Option.getD_some]

/-- An erase that the die takes at the first attempt, with the read-back of its pages under verify. -/
theorem eraseOne_passed {p : Profile} {block k d : Nat} {reads rest : List Nat} {s : State} (retries : Nat)
    (hok : s.cfg.ok = true) (hrow : RowOk p (block * p.pagesPerBlock) s) (hpower : s.env.power = .on)
    (hdraws : s.env.draws = k :: d :: (reads ++ rest)) (hready : k < s.cfg.readyTimeoutErase) (hpass : d % 2 = 0)
    (hcount : reads.length = if s.op.optVerify then p.pagesPerBlock else 0)
    (hreads : ∀ b ∈ reads, b < s.cfg.readyTimeoutRead) :
    ∃ st tr, eraseOne p block retries s =
      (none,
        afterWrite (eraseRows s.die.arr (block * p.pagesPerBlock) p.pagesPerBlock p.unitSize) st tr
          { s.env with draws := rest } s) := by
  obtain ⟨-, hu, -⟩ := Profile.ok_bounds (heldProfile_ok hok hrow.held)
  have h1 := draw_cons hdraws
  have h2 := draw_cons (s := (draw s).2) (d := d) (r := reads ++ rest) (by rw [h1])
  obtain ⟨st, tr, he⟩ := eraseRetry_passed hok hrow hpower (by rw [h1]; exact hready) (by rw [h2]; exact hpass)
  have henv : (draw (draw s).2).2.env = { s.env with draws := reads ++ rest } := by rw [h2, h1]
  rw [henv] at he
  by_cases hv : s.op.optVerify = true
  · rw [if_pos hv] at hcount
    have hpages : ∀ r, block * p.pagesPerBlock ≤ r → r < block * p.pagesPerBlock + p.pagesPerBlock → RowOk p r s := by
      intro r hlo hhi
      obtain ⟨g, rfl⟩ := Nat.exists_eq_add_of_le hlo
      exact hrow.page hok (by omega)
    obtain ⟨tr', hcheck⟩ := blankCheck_blank (p := p) (row := block * p.pagesPerBlock) (rest := rest) p.pagesPerBlock
      (s := afterWrite (eraseRows s.die.arr (block * p.pagesPerBlock) p.pagesPerBlock p.unitSize) st tr
        { s.env with draws := reads ++ rest } s)
      hok (fun r hlo hhi => (hpages r hlo hhi).of_afterWrite _ _ _ _)
      (fun r hlo hhi => allFf_readRow_eraseRows (by omega) hlo hhi) hcount hreads rfl rfl
    exact ⟨st, tr', eraseOne_verified retries he hv hcheck⟩
  · rw [if_neg hv] at hcount
    obtain rfl := List.length_eq_zero_iff.1 hcount
    exact ⟨st, tr, eraseOne_unverified retries he (by simpa using hv)⟩

/-- Settles O43: the first attempt erases the block, and the rest is the end of a unit. -/
theorem eraseUnitErasesTheBlock : Obligations.EraseUnitErasesTheBlock := by
  intro p s k d reads rest hok hc hpower hrxq hrunning hplace hleft hrow hdraws hready hpass hcount hreads
  obtain ⟨-, hu, -⟩ := Profile.ok_bounds (heldProfile_ok hok hrow.held)
  have hat := hplace.unitReady hok hpower hrow.held hleft
  obtain ⟨st, tr, he⟩ := eraseOne_passed s.cfg.verifyRetryMax hok hrow hpower hdraws hready hpass hcount hreads
  have hat' : UnitReady p (afterWrite (eraseRows s.die.arr (s.op.curBlock.toNat * p.pagesPerBlock) p.pagesPerBlock p.unitSize)
      st tr { s.env with draws := rest } s) :=
    hat.of_samePlace hpower rfl rfl
  obtain ⟨cp, env, hfinish, hcp, henv⟩ := hat'.finishUnit_eq
  have hstep := engineStep_of_running_erase hc hrxq hrunning hplace.1 hrow.held
  rw [eraseUnit_of_passed he, hfinish, henv] at hstep
  refine ⟨_, hstep, rfl, hcp, sameOutside_eraseRows _ _ _ _, fun g j hg hj => ?_⟩
  exact congrArg (Option.getD · _)
    (read_eraseRows p.pagesPerBlock s.die.arr _ p.unitSize _ j hj (by omega) (by omega) (by omega))

end Sys2Proof.Machine
end

section
/-! SUPPORT. The host commands that do not run an operation (spec/48_commands.md R330 to R344): which are refused where, what
`STATUS`, `POWER_CHECK`, `SET_RESUME`, `REDETECT` and `EXIT` do, and that every frame handled is answered. -/

namespace Sys2Proof.Machine

/-! ## Refused commands (R332, R364) -/

theorem accepted_of_reject {k : Cmd} {s : State} {cause : Cause} (handler : Host.Outcome State Fault Refusal)
    (h : accept s.cfg k s.seq s.op.opKind = .reject cause) :
    accepted k s handler = .next { s with tx := s.tx ++ failedFrame s.cfg cause.code (k.code s.cfg) } := by
  rw [accepted, h]
  rfl

/-- Settles O27: in each case the table of R332 rejects the command. -/
theorem rejectedCommandsOnlyAnswer : Obligations.RejectedCommandsOnlyAnswer := by
  intro s
  refine ⟨fun hactive => ?_, fun hidle => ?_, fun hseq => ?_, fun hseq => ?_, fun hno i payload hi => ?_⟩
  · have busy : ∀ k handler, accept s.cfg k s.seq s.op.opKind = .reject .busy →
        accepted k s handler = .next { s with tx := s.tx ++ failedFrame s.cfg 0x05 (k.code s.cfg) } :=
      fun k handler => accepted_of_reject handler
    exact ⟨fun r => busy .read _ (if_pos hactive), fun r => busy .write _ (if_pos hactive),
      fun r => busy .erase _ (if_pos hactive), fun m => busy .setResume _ (if_pos hactive),
      fun n => busy .select _ (if_pos hactive), busy .redetect _ (if_pos hactive)⟩
  · exact accepted_of_reject (k := .cancel) (cause := .badState) _ (if_neg (by simp [hidle]))
  · exact accepted_of_reject (k := .pause) (cause := .badState) _ (if_neg hseq)
  · exact accepted_of_reject (k := .resumeOp) (cause := .badState) _ (if_neg hseq)
  · rw [exec_of_unitPayload s hi]
    exact accepted_of_reject (cause := .badState) _ (if_neg (not_and_or.2 hno))

/-! ## `STATUS` and `POWER_CHECK` (R330, R338, R323) -/

theorem emit_response {i : Instr} (s : State) (h : i.space = .response) :
    emit i s = { s with tx := s.tx ++ encodeFrame s.cfg (i.codeByte s.cfg) i.operands } := by
  rw [emit, encode_of_framed (.inr h)]

theorem execStatus_of_no_profile {s : State} (h : s.ses.profile = 0xFF) :
    execStatus s = .next (emit (.rspModel 0xFF []) s) := if_pos h

theorem execStatus_of_held {s : State} {p : Profile} (h : heldProfile s = some p) :
    execStatus s = .next (emit (.rspModel s.ses.profile p.name) s) := by
  rw [execStatus, accepted_of_accept _ rfl, if_neg (held_ne_none h), withProfile, h]

theorem powerCheck_eq (s : State) :
    powerCheck s =
      emit (.rspPower (BitVec.ofNat 16 (draw s).1) (isLow s.cfg (BitVec.ofNat 16 (draw s).1)))
        { s with
          pwr := { s.pwr with mv := BitVec.ofNat 16 (draw s).1, low := isLow s.cfg (BitVec.ofNat 16 (draw s).1) }
          env := (draw s).2.env } := by
  unfold powerCheck
  dsimp only
  rw [draw_cfg, draw_pwr]
  congr 1
  rw [draw_frame]

/-- Settles O28. -/
theorem statusAndPowerCheckReport : Obligations.StatusAndPowerCheckReport := by
  intro s
  refine ⟨fun hnone => ?_, fun p hheld => ?_, ?_⟩
  · exact (execStatus_of_no_profile hnone).trans (congrArg _ (emit_response s rfl))
  · exact (execStatus_of_held hheld).trans (congrArg _ (emit_response s rfl))
  · rintro mv rfl
    have hlow : exec .powerCheck s = .next (powerCheck s) := rfl
    rw [hlow, powerCheck_eq, emit_response _ rfl]
    simp [Instr.operands, Instr.codeByte, isLow, le16]

/-! ## `SET_RESUME` (R337, R258) -/

/-- In an idle-like state `SET_RESUME` runs its handler (R332). -/
theorem exec_setResume {s : State} (mode : Byte) (hidle : idleLike s.seq = true) :
    exec (.setResume mode) s = .next (onSetResume mode s) :=
  accepted_of_accept _ (if_neg (by simp [active_of_idleLike hidle]))

/-- Settles O31. -/
theorem setResumeModes : Obligations.SetResumeModes := by
  intro s hidle hpower
  obtain ⟨cp, hinvalid, hclear⟩ := clearCp_on (s := { s with ses := { s.ses with resumeMode := false } }) hpower
  refine ⟨exec_setResume 1 hidle, ⟨_, exec_setResume 0 hidle, ?_⟩, fun m hm => ?_⟩
  · have hmode : onSetResume 0 s =
        emit (.rspAck s.cfg.commands.setResume 0) (clearCp { s with ses := { s.ses with resumeMode := false } }) := rfl
    rw [hmode, hclear]
    exact ⟨hinvalid, rfl⟩
  · rw [exec_setResume m hidle, onSetResume, if_pos hm]
    rfl

/-! ## `EXIT` (R341, R401) -/

/-- A session start after operations that leave the answers alone: it writes the volatile registers and spends the answer
that is the new token. -/
theorem sessionStart_congr {s t : State} (h : t.env = s.env) :
    sessionStart t =
      { t with
        seq := .idle, op := OpRegs.reset, dec := Decoder.reset
        ses := Session.reset t.cfg (BitVec.ofNat 32 (draw s).1)
        pwr := PowerRegs.reset
        env := (draw s).2.env } := by
  unfold sessionStart
  rw [draw_congr h]

theorem cancelled_if_active (s : State) :
    (if active s.seq then cancelOp s else s) =
      { s with
        seq := if active s.seq then .cancelled else s.seq
        op := if active s.seq then { s.op with cause := 0x16 } else s.op
        tx := s.tx ++ if active s.seq then failedFrame s.cfg 0x16 s.op.opKind else [] } := by
  split
  · rfl
  · simp

/-- Settles O35: the token drawn does not depend on the cancel and the acknowledgement before it. -/
theorem exitStartsANewSession : Obligations.ExitStartsANewSession := by
  intro s
  have hexec : exec .exit s = .next (onExit s) := rfl
  rw [hexec, onExit, cancelled_if_active]
  exact congrArg _ (sessionStart_congr (s := s) rfl)

/-! ## `REDETECT` (R340, R191, R194, R171) -/

/-- In an idle-like state `REDETECT` runs its handler (R332). -/
theorem exec_redetect {s : State} (hidle : idleLike s.seq = true) : exec .redetect s = .next (onRedetect s) :=
  accepted_of_accept (k := .redetect) _ (if_neg (by simp [active_of_idleLike hidle]))

/-- The state of `REDETECT` once its resets are over: no profile held, `cs` on the bus and `rest` left to answer. -/
def resetDone (cs : List BusCycle) (rest : List Nat) (s : State) : State :=
  { s with
    ses := { s.ses with profile := 0xFF }
    env := { s.env with draws := rest }
    die := { s.die with latch := .idle }
    trace := s.trace ++ cs }

/-- The cycles of resets that all time out. -/
def resetTimeouts (c : Config) (busy : List Nat) : List BusCycle :=
  (busy.map (fun _ => .cmd c.opReset :: List.replicate c.readyTimeoutReset (.rb false))).flatten

theorem onRedetect_of_timeout {s : State} {cs : List BusCycle} {rest : List Nat}
    (h : resetRetry s.cfg.busRetryMax { s with ses := { s.ses with profile := 0xFF } } = (false, resetDone cs rest s)) :
    onRedetect s = reject .busTimeout s.cfg.commands.redetect (resetDone cs rest s) := by
  simp only [onRedetect, h, if_true]

/-- Settles O34. -/
theorem redetectTimeoutDropsTheProfile : Obligations.RedetectTimeoutDropsTheProfile := by
  intro s busy rest hidle hdraws hlen hbusy
  have hreset := resetRetry_timeout s.cfg.busRetryMax (s := { s with ses := { s.ses with profile := 0xFF } }) hdraws hlen hbusy
  rw [exec_redetect hidle, onRedetect_of_timeout (cs := resetTimeouts s.cfg busy) hreset]
  rfl

/-- The state of `REDETECT` once the identifier is read. -/
def idDone (cs : List BusCycle) (rest : List Nat) (s : State) : State :=
  resetDone (cs ++ .cmd s.cfg.opReadId :: .addr 0x00 :: (s.die.nandId.take s.cfg.idLen).map .dataRd) rest s

section Redetect

variable {s : State} {cs : List BusCycle} {rest : List Nat}

theorem busReadId_resetDone (hid : s.cfg.idLen ≤ s.die.nandId.length) :
    busReadId (resetDone cs rest s) = (s.die.nandId.take s.cfg.idLen, idDone cs rest s) := by
  rw [busReadId_of_le (s := resetDone cs rest s) hid, idCycles_eq]
  simp [resetDone, idDone]

theorem onRedetect_of_none
    (hreset : resetRetry s.cfg.busRetryMax { s with ses := { s.ses with profile := 0xFF } } = (true, resetDone cs rest s))
    (hid : s.cfg.idLen ≤ s.die.nandId.length) (hnone : detect s.cfg (s.die.nandId.take s.cfg.idLen) = none) :
    onRedetect s = rejectNoChip s.cfg.commands.redetect (idDone cs rest s) := by
  simp only [onRedetect, hreset, Bool.true_eq_false, if_false, busReadId_resetDone hid, hnone]

/-- The profile found is held, and tuned to where autotune is enabled, before it is reported. -/
theorem onRedetect_of_some {i : Nat} {p : Profile}
    (hreset : resetRetry s.cfg.busRetryMax { s with ses := { s.ses with profile := 0xFF } } = (true, resetDone cs rest s))
    (hid : s.cfg.idLen ≤ s.die.nandId.length) (hsome : detect s.cfg (s.die.nandId.take s.cfg.idLen) = some i)
    (hp : s.cfg.profileTable[i]? = some p) :
    onRedetect s =
      emit (.rspModel (BitVec.ofNat 8 i) p.name)
        (if s.cfg.autotuneEn then
          autotune { idDone cs rest s with ses := { s.ses with profile := BitVec.ofNat 8 i } }
        else { idDone cs rest s with ses := { s.ses with profile := BitVec.ofNat 8 i } }) := by
  simp only [onRedetect, hreset, Bool.true_eq_false, if_false, busReadId_resetDone hid, hsome, hp]
  rfl

end Redetect

/-- Autotune moves the timing, the latch, the trace and the answers (R201). -/
theorem autotune_frame {s : State} (hid : s.cfg.idLen ≤ s.die.nandId.length) :
    ∃ timing cs env,
      autotune s =
        { s with
          ses := { s.ses with timing := timing }, die := { s.die with latch := .idle }, trace := s.trace ++ cs
          env := env } := by
  obtain ⟨-, -, htuned⟩ := autotuneKeepsATrialledSetting s _ _ _ rfl rfl fun _ => rfl
  obtain ⟨k, -, -, -, heq⟩ := htuned hid
  exact ⟨_, _, _, heq⟩

/-- The cycles of a reset that gets ready after `k` samples, and of the resets before it that all time out. -/
def readyResets (c : Config) (busy : List Nat) (k : Nat) : List BusCycle :=
  resetTimeouts c busy ++ .cmd c.opReset :: (List.replicate k (.rb false) ++ [.rb true])

/-- Settles O33: after the resets and the identifier read, `detect` decides, and autotune goes on where it is enabled. -/
theorem redetectHoldsOrLists : Obligations.RedetectHoldsOrLists := by
  intro s busy k rest hidle hdraws hlen hbusy hk hid
  have hreset : resetRetry s.cfg.busRetryMax { s with ses := { s.ses with profile := 0xFF } } =
      (true, resetDone (readyResets s.cfg busy k) rest s) := by
    rw [resetRetry_ready _ (s := { s with ses := { s.ses with profile := 0xFF } }) hdraws hlen hbusy hk]
    simp [resetDone, readyResets, resetTimeouts]
  rw [exec_redetect hidle]
  cases hdetect : detect s.cfg (s.die.nandId.take s.cfg.idLen) with
  | none =>
    rw [onRedetect_of_none hreset hid hdetect, rejectNoChip_eq]
    refine ⟨_, rfl, rfl, ⟨[], ?_, fun _ => rfl⟩, nofun, fun _ => ⟨rfl, rfl, rfl⟩⟩
    simp [idDone, resetDone, readyResets, resetTimeouts]
  | some i =>
    have hp := List.getElem?_eq_getElem (detect_lt hdetect)
    rw [onRedetect_of_some hreset hid hdetect hp, emit_response _ rfl]
    by_cases htune : s.cfg.autotuneEn = true
    · obtain ⟨timing, cs, env, heq⟩ := autotune_frame
        (s := { idDone (readyResets s.cfg busy k) rest s with ses := { s.ses with profile := BitVec.ofNat 8 i } }) hid
      rw [if_pos htune, heq]
      refine ⟨_, rfl, rfl, ⟨cs, ?_, by simp [htune]⟩, fun j q hj hq => ?_, nofun⟩
      · simp [idDone, resetDone, readyResets, resetTimeouts]
      · cases hj
        cases hp.symm.trans hq
        exact ⟨rfl, rfl, by simp [htune]⟩
    · rw [if_neg htune]
      refine ⟨_, rfl, rfl, ⟨[], ?_, fun _ => rfl⟩, fun j q hj hq => ?_, nofun⟩
      · simp [idDone, resetDone, readyResets, resetTimeouts]
      · cases hj
        cases hp.symm.trans hq
        exact ⟨rfl, rfl, fun _ => ⟨rfl, rfl⟩⟩

end Sys2Proof.Machine
end

section
/-! SUPPORT. Every frame handled is answered (spec/48_commands.md R344): whatever a handler does before its first response sends
nothing. -/

namespace Sys2Proof.Machine

/-- From `s` to `t` nothing was sent. -/
structure Silent (s t : State) : Prop where
  cfg : t.cfg = s.cfg
  tx : t.tx = s.tx

/-- From `s` to `t` a response was sent first of all. -/
def Answered (s t : State) : Prop := ∃ i : Instr, i.space = .response ∧ s.tx ++ encode s.cfg i <+: t.tx

theorem Silent.trans {s t u : State} (h : Silent s t) (k : Silent t u) : Silent s u :=
  ⟨k.cfg.trans h.cfg, k.tx.trans h.tx⟩

theorem BusOnly.silent {s t : State} (h : BusOnly s t) : Silent s t := ⟨by rw [h.registers], by rw [h.registers]⟩

theorem BusOrSession.silent {s t : State} (h : BusOrSession s t) : Silent s t :=
  ⟨by rw [BusOnly.registers h], by rw [BusOnly.registers h]⟩

theorem silent_clearCp (s : State) : Silent s (clearCp s) := ⟨by rw [(clearCp_frame s).1], by rw [(clearCp_frame s).1]⟩

theorem silent_completeOp (s : State) : Silent s (completeOp s) :=
  Silent.trans (t := { s with seq := .completed }) ⟨rfl, rfl⟩ (silent_clearCp _)

theorem silent_saveProgress (p : Profile) (s : State) : Silent s (saveProgress p s) := by
  rw [saveProgress, (save_frame _ _ _ _ _ s).1]
  exact ⟨rfl, rfl⟩

theorem answered_emit {i : Instr} (s : State) (h : i.space = .response) : Answered s (emit i s) :=
  ⟨i, h, List.prefix_rfl⟩

theorem answered_reject (cause : Cause) (ctx : Byte) (s : State) : Answered s (reject cause ctx s) := answered_emit s rfl

theorem answered_endWith (q : Seq) (cause : Cause) (s : State) : Answered s (endWith q cause s) :=
  ⟨.rspFailed cause.code s.op.opKind, rfl, List.prefix_rfl⟩

theorem Silent.answered {s t u : State} (h : Silent s t) (k : Answered t u) : Answered s u := by
  obtain ⟨i, hi, hprefix⟩ := k
  rw [h.cfg, h.tx] at hprefix
  exact ⟨i, hi, hprefix⟩

/-- What follows only adds to `TX`. -/
theorem Answered.followed {s t u : State} (h : Answered s t) (k : Moves t u) : Answered s u := by
  obtain ⟨i, hi, hprefix⟩ := h
  exact ⟨i, hi, hprefix.trans k.tx⟩

/-! ## Units of a Write (R284) -/

/-- A unit done is reported with `RSP_PROGRESS` (R283). -/
theorem answered_finishUnit (p : Profile) (s : State) : Answered s (finishUnit p s) := by
  have hcount : Silent s { s with op := advanceCursor s.cfg p { s.op with opDone := s.op.opDone + 1 } } := ⟨rfl, rfl⟩
  unfold finishUnit
  dsimp only
  split
  · exact (hcount.trans (silent_completeOp _)).answered
      ((answered_emit _ rfl).followed (quiet_emitComplete _).toMoves)
  · split
    · exact (hcount.trans (silent_saveProgress p _)).answered (answered_emit _ rfl)
    · exact hcount.answered (answered_emit _ rfl)

theorem answered_finishWrite (p : Profile) (x : List Byte) (s : State) : Answered s (finishWrite p x s) :=
  Silent.answered (t := { updateChunk p x s with op := { (updateChunk p x s).op with frameErrCnt := 0 } }) ⟨rfl, rfl⟩
    (answered_finishUnit p _)

theorem answered_writeUnit (p : Profile) (x : List Byte) (s : State) : Answered s (writeUnit p x s) := by
  have hwrite := (busOnly_writeOne p (cursorRow p s) x s.cfg.verifyRetryMax s).silent
  unfold writeUnit
  dsimp only
  split
  · exact answered_finishWrite p x s
  · split
    · exact hwrite.answered (answered_endWith _ _ _)
    · exact hwrite.answered (answered_finishWrite p x _)

theorem answered_of_onData {payload : List Byte} {s t : State} (h : onData payload s = .next t) : Answered s t := by
  obtain ⟨p, -, h⟩ := withProfile_next h
  split at h
  · cases h
    exact answered_reject _ _ s
  · cases h
    exact answered_writeUnit p _ s

/-! ## Operation starts (R279) -/

theorem silent_resumeDecision (p : Profile) (kind : Byte) (start total : Nat) (s : State) :
    Silent s (resumeDecision p kind start total s).2 := by
  have hread := (busOnly_readRetry (cpRow p s.cp) p.unitSize s).silent
  unfold resumeDecision
  dsimp only
  split
  · exact ⟨rfl, rfl⟩
  · split
    · exact silent_clearCp s
    · split
      · split
        · split
          · exact hread
          · exact hread.trans (silent_clearCp _)
        · exact hread
        · exact hread
      · exact ⟨rfl, rfl⟩

theorem answered_announce (info : Byte) (s : State) : Answered s (announce info s) := by
  have hack : Answered s (emitProgress (emit (.rspAck s.op.opKind info) s)) :=
    (answered_emit s rfl).followed (quiet_emitProgress _).toMoves
  unfold announce
  dsimp only
  split
  · exact hack.followed ((kept_completeOp _).trans (quiet_emitComplete _).toKept).toMoves
  · exact hack

theorem answered_runOp (p : Profile) (kind : Byte) (r : Request) (start total : Nat) (s : State) :
    Answered s (runOp p kind r start total s) := by
  have hdecide : Silent s (resumeDecision p kind start total (beginOp p kind r start total s)).2 :=
    Silent.trans (t := beginOp p kind r start total s) ⟨rfl, rfl⟩ (silent_resumeDecision p kind start total _)
  unfold runOp
  dsimp only
  split
  · exact hdecide.answered (answered_endWith _ _ _)
  · refine Silent.answered ?_ (answered_announce _ _)
    split
    · exact hdecide.trans ⟨rfl, rfl⟩
    · exact hdecide

theorem answered_of_startOp {kind : Byte} {r : Request} {s t : State} (h : startOp kind r s = .next t) : Answered s t := by
  unfold startOp at h
  split at h
  · cases h
    exact answered_reject _ _ s
  · obtain ⟨p, -, h⟩ := withProfile_next h
    split at h
    · cases h
      exact answered_reject _ _ s
    · cases h
      exact answered_runOp _ _ _ _ _ s

/-! ## The other handlers -/

theorem answered_of_onPause {s t : State} (h : onPause s = .next t) : Answered s t := by
  have hpause : Silent s { s with seq := .paused } := ⟨rfl, rfl⟩
  unfold onPause at h
  split at h
  · cases h
    exact hpause.answered (answered_emit _ rfl)
  · obtain ⟨p, -, h⟩ := withProfile_next h
    cases h
    exact (hpause.trans (silent_saveProgress p _)).answered (answered_emit _ rfl)

theorem answered_onSetResume (mode : Byte) (s : State) : Answered s (onSetResume mode s) := by
  unfold onSetResume
  split
  · exact answered_reject _ _ s
  · split
    · exact (Silent.trans (t := { s with ses := { s.ses with resumeMode := false } }) ⟨rfl, rfl⟩ (silent_clearCp _)).answered
        (answered_emit _ rfl)
    · exact Silent.answered ⟨rfl, rfl⟩ (answered_emit { s with ses := { s.ses with resumeMode := true } } rfl)

theorem answered_rejectNoChip (ctx : Byte) (s : State) : Answered s (rejectNoChip ctx s) := by
  rw [rejectNoChip_eq]
  exact ⟨.rspFailed 0x15 ctx, rfl, List.prefix_append _ _⟩

theorem answered_onSelect (index : Byte) (s : State) : Answered s (onSelect index s) := by
  unfold onSelect
  split
  · exact answered_rejectNoChip _ s
  · exact Silent.answered ⟨rfl, rfl⟩ (answered_emit { s with ses := { s.ses with profile := index } } rfl)

/-- A profile is held from here on, with the bus tuned to it or not (R340). -/
theorem silent_hold (tune : Bool) (x : Session) (s : State) :
    Silent s (if tune then autotune { s with ses := x } else { s with ses := x }) := by
  have hset : Silent s { s with ses := x } := ⟨rfl, rfl⟩
  split
  · exact hset.trans (busOrSession_autotune _).silent
  · exact hset

theorem answered_onRedetect (s : State) : Answered s (onRedetect s) := by
  have hreset : Silent s (resetRetry s.cfg.busRetryMax { s with ses := { s.ses with profile := 0xFF } }).2 :=
    Silent.trans (t := { s with ses := { s.ses with profile := 0xFF } }) ⟨rfl, rfl⟩ (busOnly_resetRetry _ _).silent
  have hread := hreset.trans (busOnly_busReadId _).silent
  unfold onRedetect
  dsimp only
  split
  · exact hreset.answered (answered_reject _ _ _)
  · split
    · exact hread.answered (answered_rejectNoChip _ _)
    · exact (hread.trans (silent_hold _ _ _)).answered (answered_emit _ rfl)

theorem answered_onExit (s : State) : Answered s (onExit s) := by
  unfold onExit
  split
  · exact (answered_endWith _ _ s).followed ((quiet_emit _ _).toMoves.trans (moves_sessionStart _))
  · exact (answered_emit s rfl).followed (moves_sessionStart _)

theorem answered_powerCheck (s : State) : Answered s (powerCheck s) := by
  rw [powerCheck_eq]
  exact Silent.answered ⟨rfl, rfl⟩ (answered_emit _ rfl)

theorem answered_of_accepted {k : Cmd} {s t : State} {handler : Host.Outcome State Fault Refusal}
    (hrun : handler = .next t → Answered s t) (h : accepted k s handler = .next t) : Answered s t :=
  accepted_keeps (fun _ _ => answered_reject _ _ s) (fun _ => hrun) h

/-- `STATUS` is answered with `RSP_MODEL` (R330). -/
theorem answered_of_execStatus {s t : State} (h : execStatus s = .next t) : Answered s t := by
  refine answered_of_accepted (fun hrun => ?_) h
  split at hrun
  · cases hrun
    exact answered_emit s rfl
  · obtain ⟨p, -, hrun⟩ := withProfile_next hrun
    cases hrun
    exact answered_emit s rfl

/-- Every host command is answered, in every state. -/
theorem answered_of_exec {i : Instr} {s t : State} (hi : i.space = .command) (h : exec i s = .next t) : Answered s t := by
  cases i with
  | status => exact answered_of_execStatus h
  | read | write | erase => exact answered_of_accepted answered_of_startOp h
  | cancel =>
    refine answered_of_accepted (fun hrun => ?_) h
    cases hrun
    exact answered_endWith _ _ s
  | pause => exact answered_of_accepted answered_of_onPause h
  | resumeOp =>
    refine answered_of_accepted (fun hrun => ?_) h
    cases hrun
    exact Silent.answered ⟨rfl, rfl⟩ (answered_emit { s with seq := .running } rfl)
  | setResume mode =>
    refine answered_of_accepted (fun hrun => ?_) h
    cases hrun
    exact answered_onSetResume mode s
  | powerCheck =>
    cases h
    exact answered_powerCheck s
  | select index =>
    refine answered_of_accepted (fun hrun => ?_) h
    cases hrun
    exact answered_onSelect index s
  | redetect =>
    refine answered_of_accepted (fun hrun => ?_) h
    cases hrun
    exact answered_onRedetect s
  | exit =>
    cases h
    exact answered_onExit s
  | data => exact answered_of_accepted answered_of_onData h
  | _ => cases hi

theorem answered_of_dispatchFrame {cmd : Byte} {payload : List Byte} {s t : State}
    (h : dispatchFrame cmd payload s = .next t) : Answered s t := by
  unfold dispatchFrame at h
  split at h
  · next hdecode => exact answered_of_exec (operands_of_decodeCommand hdecode).1 h
  all_goals
    cases h
    exact answered_reject _ _ s

/-- Settles O58: a frame is refused at once, or it is a command. -/
theorem everyFrameIsAnswered : Obligations.EveryFrameIsAnswered := by
  intro cmd payload s t h
  obtain ⟨i, hi, more, htx⟩ := answered_of_dispatchFrame h
  exact ⟨i, more, hi, htx.symm⟩

end Sys2Proof.Machine
end

section
/-! SUPPORT. Supply samples and their count (spec/47_power_monitor.md R321, R322, R325). -/

namespace Sys2Proof.Machine

/-- `RSP_POWER(mv, 1)` (R321) as bytes. -/
def lowFrame (c : Config) (mv : U16) : List Byte := encodeFrame c c.responses.power (leBytes 2 mv.toNat ++ [0x01])

/-- What every low sample does (R321): the power registers are written and the host is warned. -/
def warned (mv : U16) (s : State) : State :=
  { s with
    pwr := { mv := mv, low := true, lowCount := saturatingSucc s.pwr.lowCount }
    tx := s.tx ++ lowFrame s.cfg mv }

theorem toNat_saturatingSucc (n : Byte) : (saturatingSucc n).toNat = min (n.toNat + 1) 255 := by
  rw [saturatingSucc, BitVec.toNat_ofNat, Nat.mod_eq_of_lt (by omega)]

theorem powerSample_of_low {mv : U16} {s : State} (h : mv.toNat < s.cfg.powerThresholdMv) :
    powerSample mv s =
      if active s.seq = true ∧ s.cfg.powerFailCount ≤ min (s.pwr.lowCount.toNat + 1) 255 then fail .power (warned mv s)
      else warned mv s := by
  rw [← toNat_saturatingSucc]
  exact if_pos (decide_eq_true h)

theorem powerSample_of_not_low {mv : U16} {s : State} (h : ¬mv.toNat < s.cfg.powerThresholdMv) :
    powerSample mv s = { s with pwr := { mv := mv, low := false, lowCount := 0 } } :=
  if_neg (by simp [isLow, h])

/-- Settles O45, by whether the sample is low. -/
theorem supplySamplesWarnAndAbort : Obligations.SupplySamplesWarnAndAbort := by
  rintro s mv _ rfl
  refine congrArg Host.Outcome.next ?_
  by_cases hlow : mv.toNat < s.cfg.powerThresholdMv
  · rw [powerSample_of_low hlow, if_pos hlow]
    rfl
  · rw [powerSample_of_not_low hlow, if_neg hlow]

/-- The warnings of low samples, in order. -/
def lowFrames (c : Config) (mvs : List U16) : List Byte := (mvs.map (lowFrame c)).flatten

/-- Low samples that leave `LOW_COUNT` below `POWER_FAIL_COUNT` warn, and nothing else (R325). -/
theorem foldl_powerSample_of_few {mvs : List U16} {s : State} (hmax : s.cfg.powerFailCount ≤ 255)
    (hlow : ∀ mv ∈ mvs, mv.toNat < s.cfg.powerThresholdMv)
    (hfew : s.pwr.lowCount.toNat + mvs.length < s.cfg.powerFailCount) :
    ∃ pwr, pwr.lowCount.toNat = s.pwr.lowCount.toNat + mvs.length ∧
      mvs.foldl (fun u mv => powerSample mv u) s = { s with pwr := pwr, tx := s.tx ++ lowFrames s.cfg mvs } := by
  induction mvs generalizing s with
  | nil => exact ⟨s.pwr, rfl, by simp [lowFrames]⟩
  | cons mv rest ih =>
    obtain ⟨hmv, hrest⟩ := List.forall_mem_cons.1 hlow
    rw [List.length_cons] at hfew
    have hcount : (warned mv s).pwr.lowCount.toNat = s.pwr.lowCount.toNat + 1 := by
      have := toNat_saturatingSucc s.pwr.lowCount
      simp only [warned]
      omega
    have hfew' : (warned mv s).pwr.lowCount.toNat + rest.length < s.cfg.powerFailCount := by omega
    obtain ⟨pwr, hpwr, hfold⟩ := ih (s := warned mv s) hmax hrest hfew'
    refine ⟨pwr, by rw [hpwr, hcount, List.length_cons]; omega, ?_⟩
    rw [List.foldl_cons, powerSample_of_low hmv, if_neg (by omega), hfold]
    simp [warned, lowFrames]

/-- Settles O46: the last of the samples finds `LOW_COUNT` one below `POWER_FAIL_COUNT`. -/
theorem persistentLowSupplyFailsTheOperation : Obligations.PersistentLowSupplyFailsTheOperation := by
  intro s mvs hok hmax hactive hzero hlow
  have hzero' : s.pwr.lowCount.toNat = 0 := by rw [hzero]; rfl
  refine ⟨fun hfew => ?_, fun hall => ?_⟩
  · obtain ⟨pwr, -, hfold⟩ := foldl_powerSample_of_few hmax hlow (by omega)
    rw [hfold]
    exact ⟨rfl, rfl⟩
  · have hpos := (Config.ok_bounds hok).2.2.2.2.1
    obtain ⟨init, last, rfl⟩ := (List.eq_nil_or_concat mvs).resolve_left (by rintro rfl; simp at hall; omega)
    simp only [List.concat_eq_append, List.length_append, List.length_singleton] at hlow hall ⊢
    obtain ⟨pwr, hpwr, hfold⟩ := foldl_powerSample_of_few (mvs := init) hmax (fun mv hmv => hlow mv (by simp [hmv])) (by omega)
    have hlast := powerSample_of_low (mv := last) (s := { s with pwr := pwr, tx := s.tx ++ lowFrames s.cfg init })
      (hlow last (by simp))
    rw [if_pos ⟨hactive, by simp only; omega⟩] at hlast
    rw [List.foldl_append, hfold, List.foldl_cons, List.foldl_nil, hlast]
    refine ⟨rfl, rfl, rfl, ?_⟩
    have hframes : lowFrames s.cfg (init ++ [last]) = lowFrames s.cfg init ++ lowFrame s.cfg last := by simp [lowFrames]
    show _ = s.tx ++ lowFrames s.cfg (init ++ [last]) ++ failedFrame s.cfg 0x13 s.op.opKind
    rw [hframes, ← List.append_assoc]
    rfl

end Sys2Proof.Machine
end

section
/-! SUPPORT. Errors that end or disturb an operation (spec/60_exceptions.md R363, R365, R372, R376). -/

namespace Sys2Proof.Machine

/-! ## Reads that always time out (R365, R199) -/

/-- `busy` answers `BUS_RETRY_MAX + 1` reads in a row, each too late. -/
structure ReadsTimeOut (busy rest : List Nat) (s : State) : Prop where
  draws : s.env.draws = busy ++ rest
  count : busy.length = s.cfg.busRetryMax + 1
  late : ∀ k ∈ busy, s.cfg.readyTimeoutRead ≤ k

theorem ReadsTimeOut.readRetry {busy rest : List Nat} {s : State} (h : ReadsTimeOut busy rest s) (row n : Nat) :
    ∃ tr, readRetry row n s = (.timeout, afterRead tr { s.env with draws := rest } s) :=
  withBusRetry_memRead_timeout row n rest s.cfg.busRetryMax h.draws h.count h.late

theorem readUnit_of_timeout {p : Profile} {s u : State} (h : readRetry (cursorRow p s) p.unitSize s = (.timeout, u)) :
    readUnit p s = fail .busTimeout u := by
  simp only [readUnit, h]

/-- The re-verification of a Write's checkpoint can time out (R255). -/
theorem resumeDecision_of_timeout {p : Profile} {start total : Nat} {s u : State}
    (h : Resumable p s.cfg.commands.write start total s) (hread : readRetry (cpRow p s.cp) p.unitSize s = (.timeout, u)) :
    resumeDecision p s.cfg.commands.write start total s = (.busTimeout, u) := by
  rw [resumeDecision, if_neg (by simp [h.valid]), if_neg h.not_stale, if_pos rfl]
  simp only [hread]

theorem runOp_of_timeout {p : Profile} {kind : Byte} {r : Request} {start total : Nat} {s u : State}
    (h : resumeDecision p kind start total (beginOp p kind r start total s) = (.busTimeout, u)) :
    runOp p kind r start total s = fail .busTimeout u := by
  simp only [runOp, h]

/-- Settles O25: a unit and a re-verification each end in `fail` after the last attempt. -/
theorem timedOutReadsFailTheOperation : Obligations.TimedOutReadsFailTheOperation := by
  intro p busy rest s hheld hdraws hcount hlate
  refine ⟨fun hrxq hrunning hkind => ?_, fun r start total hidle hrange hvalid hcp hmode hin => ?_⟩
  · obtain ⟨tr, hread⟩ := ReadsTimeOut.readRetry ⟨hdraws, hcount, hlate⟩ (cursorRow p s) p.unitSize
    rw [engineStep_of_running_read hrxq hrunning hkind hheld, readUnit_of_timeout hread, ← hkind]
    exact ⟨_, rfl, rfl⟩
  · obtain ⟨tr, hread⟩ := ReadsTimeOut.readRetry (s := beginOp p s.cfg.commands.write r start total s)
      ⟨hdraws, hcount, hlate⟩ (cpRow p s.cp) p.unitSize
    have hdec : resumeDecision p s.cfg.commands.write start total (beginOp p s.cfg.commands.write r start total s) = _ :=
      resumeDecision_of_timeout ⟨hvalid, hcp, hmode, hin⟩ hread
    rw [exec_valid_request (i := .write r) rfl hidle hheld hrange, runOp_of_timeout hdec, beginOp_eq]
    exact ⟨_, rfl, rfl⟩

/-! ## Frame errors (R363) -/

theorem onFrameError_of_write {cause : Cause} {s u : State} {n : Nat} (hrunning : s.seq = .running)
    (hkind : s.op.opKind = s.cfg.commands.write) (h : bumpFrameErr (reject cause 0x00 s) = (n, u)) :
    onFrameError cause s = if s.cfg.frameRetryMax < n then fail .frameRetry u else u := by
  rw [onFrameError]
  simp only [if_pos (And.intro hrunning hkind), h]

/-- The decoder's two errors are handled alike. -/
theorem serviceResult_error {k : RxResult} {cause : Byte}
    (h : (k = .errChecksum ∧ cause = 0x01) ∨ (k = .errLength ∧ cause = 0x02)) :
    ∃ e : Cause, cause = e.code ∧ ∀ s, serviceResult k s = .next (onFrameError e s) := by
  rcases h with ⟨rfl, rfl⟩ | ⟨rfl, rfl⟩
  · exact ⟨.frameChecksum, rfl, fun _ => rfl⟩
  · exact ⟨.frameLength, rfl, fun _ => rfl⟩

/-- Settles O41, by what the counter does. -/
theorem frameErrorsAreCounted : Obligations.FrameErrorsAreCounted := by
  intro s k cause h
  obtain ⟨e, rfl, herror⟩ := serviceResult_error h
  rw [herror]
  refine ⟨fun hno => congrArg _ (onFrameError_else e hno), fun hrunning hkind hlt => ?_, fun hrunning hkind hfull => ?_⟩
  · rw [onFrameError_of_write hrunning hkind (bumpFrameErr_counts (s := reject e 0x00 s) hlt), ← hkind]
    rfl
  · obtain ⟨n, hbump⟩ := bumpFrameErr_overflow (s := reject e 0x00 s) (by simp [hfull])
    rw [onFrameError_of_write hrunning hkind hbump, ← hkind]
    exact ⟨n, rfl⟩

/-! ## The inactivity timeout (R376, R293) -/

theorem quiescent_iff {s : State} :
    quiescent s = true ↔
      s.rxq = [] ∧ ¬(s.seq = .running ∧ (s.op.opKind = s.cfg.commands.read ∨ s.op.opKind = s.cfg.commands.erase)) := by
  simp only [quiescent, Bool.and_eq_true, Bool.not_eq_true', Bool.and_eq_false_iff, decide_eq_true_eq,
    decide_eq_false_iff_not, Bool.or_eq_false_iff]
  tauto

/-- Settles O47. -/
theorem inactivityTimeoutReturnsToIdle : Obligations.InactivityTimeoutReturnsToIdle := by
  intro s hrxq hwaits
  refine congrArg Host.Outcome.next ?_
  rw [inactivityTimeout, if_pos (quiescent_iff.2 ⟨hrxq, hwaits⟩)]
  by_cases hactive : active s.seq = true
  · simp only [hactive, if_true]
    rfl
  · simp [hactive]

end Sys2Proof.Machine
end

section
/-! SUPPORT. What a power-on and the reset state hold (spec/70_reset_and_hazards.md R400, R401). -/

namespace Sys2Proof.Machine

/-- Settles O48: a session start on empty streams, and a drawn status byte. -/
theorem powerOnResetsTheVolatileState : Obligations.PowerOnResetsTheVolatileState := by
  intro s
  refine ⟨powerOn s, rfl, ?_, rfl⟩
  have hstart := sessionStart_congr
    (t := { s with rxq := [], tx := [], trace := [], env := { s.env with power := .on } }) rfl
  unfold powerOn
  dsimp only
  rw [draw_frame, hstart]
  rfl

/-- No operation is active, no profile held, and the decoder hunts. -/
theorem inv_reset : Inv State.reset :=
  ⟨by decide, by decide, rfl, rfl, .inl rfl, nofun, trivial⟩

/-- Settles O52. -/
theorem resetIsSound : Obligations.ResetIsSound :=
  ⟨inv_reset, rfl, rfl, rfl, rfl, rfl, rfl, rfl, rfl, rfl⟩

end Sys2Proof.Machine
end

section
/-! SUPPORT. Power failing inside a step (spec/70_reset_and_hazards.md R400, R416, spec/20_memory.md R72): a step under a failing
supply and the same step under a lasting one are compared effect by effect. -/

namespace Sys2Proof.Machine

/-! ## The supply -/

/-- The state with another supply. -/
def State.withPower (s : State) (q : Supply) : State := { s with env := { s.env with power := q } }

@[simp] theorem withPower_cfg (s : State) (q : Supply) : (s.withPower q).cfg = s.cfg := rfl
@[simp] theorem withPower_cp (s : State) (q : Supply) : (s.withPower q).cp = s.cp := rfl
@[simp] theorem withPower_die (s : State) (q : Supply) : (s.withPower q).die = s.die := rfl

theorem withPower_same (s : State) : s.withPower s.env.power = s := rfl

/-- The supply after an effect that it lasts for. -/
def Supply.spend : Supply → Option Supply
  | .on => some .on
  | .failing (n + 1) f => some (.failing n f)
  | .failing 0 _ | .off => none

/-- The supply does not last for another effect. -/
def Supply.spent (q : Supply) : Bool := q.spend.isNone

/-- The supply does not last for another effect, and leaves nothing in flight. -/
def Supply.Dark (q : Supply) : Prop := q = .off ∨ q = .failing 0 false

theorem Supply.exists_spend {q : Supply} (h : q.spent = false) : ∃ q', q.spend = some q' :=
  Option.isSome_iff_exists.1 (by simpa [Supply.spent] using h)

theorem Supply.spent_iff {q : Supply} : q.spent = true ↔ q = .off ∨ ∃ f, q = .failing 0 f := by
  match q with
  | .on | .failing (n + 1) f | .failing 0 f | .off => simp [Supply.spent, Supply.spend]

/-! ## One effect under a supply (R400) -/

theorem arrayEffect_of_spend {done torn : State → State} {s : State} {q q' : Supply} (h : q.spend = some q') :
    arrayEffect done torn (s.withPower q) = done (s.withPower q') := by
  match q, h with
  | .on, h | .failing (n + 1) f, h =>
    cases h
    rfl

theorem recordEffect_of_spend {f : State → State} {s : State} {q q' : Supply} (h : q.spend = some q') :
    recordEffect f (s.withPower q) = f (s.withPower q') := by
  match q, h with
  | .on, h | .failing (n + 1) f, h =>
    cases h
    rfl

theorem recordEffect_of_spent {f : State → State} {s : State} (h : s.env.power.spent = true) :
    (recordEffect f s).cp = s.cp := by
  unfold recordEffect
  rcases Supply.spent_iff.1 h with hq | ⟨b, hq⟩ <;> rw [hq]

/-- Work on the array's cells, to which the supply does not matter. -/
structure CellWork (f : State → State) : Prop where
  bus : ∀ s, BusOnly s (f s)
  blind : ∀ s q, f (s.withPower q) = (f s).withPower q

theorem CellWork.power {f : State → State} (h : CellWork f) (s : State) : (f s).env.power = s.env.power :=
  congrArg (fun t => t.env.power) (h.blind s s.env.power)

theorem cellWork_setArr (g : Memory → Memory) : CellWork fun s => s.setArr (g s.die.arr) :=
  ⟨fun s => busOnly_setArr s _, fun _ _ => rfl⟩

theorem cellWork_strayChange : CellWork strayChange := ⟨busOnly_strayChange, fun _ _ => rfl⟩

theorem draw_withPower (s : State) (q : Supply) : draw (s.withPower q) = ((draw s).1, (draw s).2.withPower q) := by
  cases h : s.env.draws with
  | nil =>
    rw [draw_nil h, draw_nil (s := s.withPower q) h]
    rfl
  | cons d r =>
    rw [draw_cons h, draw_cons (s := s.withPower q) h]
    rfl

theorem drawBytes_withPower (n : Nat) (s : State) (q : Supply) :
    drawBytes n (s.withPower q) = ((drawBytes n s).1, (drawBytes n s).2.withPower q) := by
  induction n generalizing s with
  | zero => rfl
  | succ n ih => simp only [drawBytes, draw_withPower, ih]

theorem cellWork_tearRows (row n u : Nat) : CellWork (tearRows row n u) := by
  refine ⟨busOnly_tearRows n row u, fun s q => ?_⟩
  induction n generalizing row s with
  | zero => rfl
  | succ n ih =>
    simp only [tearRows, drawBytes_withPower]
    exact ih (row + 1)
      ((drawBytes u s).2.setArr (writeRun (drawBytes u s).2.die.arr (cellAddr row 0) (drawBytes u s).1))

theorem cellWork_ite {f g : State → State} (b : Bool) (hf : CellWork f) (hg : CellWork g) :
    CellWork fun s => if b then f s else g s := by
  cases b
  · exact hg
  · exact hf

theorem arrayEffect_of_spent {done torn : State → State} {s : State} (ht : CellWork torn) (h : s.env.power.spent = true) :
    (arrayEffect done torn s).env.power.spent = true := by
  unfold arrayEffect
  rcases Supply.spent_iff.1 h with hq | ⟨_ | _, hq⟩ <;> simp only [hq]
  · rfl
  · rfl
  · rw [ht.power]
    rfl

theorem arrayEffect_of_dark {done torn : State → State} {s : State} (h : s.env.power.Dark) :
    (arrayEffect done torn s).env.power.Dark ∧ (arrayEffect done torn s).die.arr = s.die.arr := by
  unfold arrayEffect
  rcases h with hq | hq <;> simp [hq, Supply.Dark]

theorem sameOutside_arrayEffect {done torn : State → State} {row n u : Nat} (s : State)
    (hd : ∀ t, SameOutside row n u t.die.arr (done t).die.arr) (ht : ∀ t, SameOutside row n u t.die.arr (torn t).die.arr) :
    SameOutside row n u s.die.arr (arrayEffect done torn s).die.arr := by
  unfold arrayEffect
  split
  · exact hd s
  · exact hd { s with env := _ }
  · exact ht { s with env := _ }
  · exact SameOutside.refl _ _ _ _
  · exact SameOutside.refl _ _ _ _

/-! ## What bus work does under a supply -/

/-- Work on the bus aimed at `n` rows from `row` on, under any supply: a lasting supply lasts, a dark one stays dark and moves no
cell, and no cell of another row of the array moves. -/
structure CutStep (p : Profile) (row n : Nat) (s t : State) : Prop where
  bus : BusOnly s t
  on : s.env.power = .on → t.env.power = .on
  dark : s.env.power.Dark → t.env.power.Dark ∧ t.die.arr = s.die.arr
  outside : s.cfg.ok = true → RowOk p row s → SameOutside row n p.unitSize s.die.arr t.die.arr

theorem CutStep.trans {p : Profile} {row n : Nat} {s t u : State} (h : CutStep p row n s t) (k : CutStep p row n t u) :
    CutStep p row n s u := by
  refine ⟨h.bus.trans k.bus, k.on ∘ h.on, fun hd => ?_, fun hok hrow => ?_⟩
  · obtain ⟨hdark, harr⟩ := h.dark hd
    obtain ⟨hdark', harr'⟩ := k.dark hdark
    exact ⟨hdark', harr'.trans harr⟩
  · exact (h.outside hok hrow).trans (k.outside (by rw [h.bus.registers]; exact hok) (hrow.of_busOnly h.bus))

theorem CutStep.of_same {p : Profile} {row n : Nat} {s t : State} (hbus : BusOnly s t)
    (hpower : t.env.power = s.env.power) (harr : t.die.arr = s.die.arr) : CutStep p row n s t :=
  ⟨hbus, fun h => hpower.trans h, fun h => ⟨hpower ▸ h, harr⟩, fun _ _ => harr ▸ SameOutside.refl _ _ _ _⟩

/-- Bus work that moves no cell, and to which the supply does not matter. -/
structure BlindRead {α : Type} (f : State → α × State) : Prop where
  bus : ∀ s, BusOnly s (f s).2
  arr : ∀ s, (f s).2.die.arr = s.die.arr
  blind : ∀ s q, f (s.withPower q) = ((f s).1, (f s).2.withPower q)

theorem BlindRead.power {α : Type} {f : State → α × State} (h : BlindRead f) (s : State) :
    (f s).2.env.power = s.env.power :=
  congrArg (fun r => r.2.env.power) (h.blind s s.env.power)

theorem BlindRead.cutStep {α : Type} {f : State → α × State} (h : BlindRead f) (p : Profile) (row n : Nat) (s : State) :
    CutStep p row n s (f s).2 := .of_same (h.bus s) (h.power s) (h.arr s)

/-- Bus work that can be cut: from a state whose supply lasts, the same work under a failing supply does the same, or has spent
the supply by its end; it has if the supply was spent before. -/
structure Cuttable (p : Profile) (row n : Nat) {α : Type} (f : State → α × State) : Prop where
  step : ∀ s, CutStep p row n s (f s).2
  mirrors : ∀ s q, s.env.power = .on →
    (f (s.withPower q)).2.env.power.spent = true ∨
      q.spent = false ∧ ∃ q', f (s.withPower q) = ((f s).1, (f s).2.withPower q')

section Cuttable

variable {p : Profile} {row n : Nat} {α β : Type}

theorem BlindRead.cuttable {f : State → α × State} (h : BlindRead f) : Cuttable p row n f := by
  refine ⟨h.cutStep p row n, fun s q _ => ?_⟩
  rw [h.blind]
  cases hq : q.spent with
  | true => exact .inl hq
  | false => exact .inr ⟨rfl, q, rfl⟩

theorem blindRead_pure (a : α) : BlindRead fun s => (a, s) := ⟨BusOnly.refl, fun _ => rfl, fun _ _ => rfl⟩

theorem Cuttable.congr {f g : State → α × State} (h : Cuttable p row n g) (he : ∀ s, f s = g s) : Cuttable p row n f := by
  rwa [funext he]

/-- A state whose supply is spent is one whose supply lasted, cut. -/
theorem Cuttable.spent {f : State → α × State} (h : Cuttable p row n f) {s : State} (hs : s.env.power.spent = true) :
    (f s).2.env.power.spent = true := by
  rcases h.mirrors (s.withPower .on) s.env.power rfl with hspent | ⟨hlasts, -⟩
  · exact hspent
  · rw [hs] at hlasts
    cases hlasts

theorem Cuttable.bind {f : State → α × State} {g : α → State → β × State} (hf : Cuttable p row n f)
    (hg : ∀ a, Cuttable p row n (g a)) : Cuttable p row n fun s => g (f s).1 (f s).2 := by
  refine ⟨fun s => (hf.step s).trans ((hg _).step _), fun s q hon => ?_⟩
  rcases hf.mirrors s q hon with hspent | ⟨hlasts, q', heq⟩
  · exact .inl ((hg _).spent hspent)
  · rw [heq]
    exact ((hg _).mirrors _ q' ((hf.step s).on hon)).imp_right fun ⟨_, hmirror⟩ => ⟨hlasts, hmirror⟩

/-- What is read off the state before must not be the supply. -/
theorem Cuttable.reads {g : β → State → α × State} (h : State → β) (hh : ∀ s q, h (s.withPower q) = h s)
    (hg : ∀ b, Cuttable p row n (g b)) : Cuttable p row n fun s => g (h s) s := by
  refine ⟨fun s => (hg _).step s, fun s q hon => ?_⟩
  simp only [hh]
  exact (hg _).mirrors s q hon

end Cuttable

/-! ## The bounded retry (R199) -/

/-- What the bounded retry does after its first attempt. -/
def nextAttempt {α : Type} (txn : State → BusResult α × State) (k : Nat) : BusResult α → State → BusResult α × State
  | .timeout, s => withBusRetry txn k s
  | .ok a, s => (.ok a, s)
  | .statusFail, s => (.statusFail, s)

theorem withBusRetry_succ_eq {α : Type} (txn : State → BusResult α × State) (k : Nat) (s : State) :
    withBusRetry txn (k + 1) s = nextAttempt txn k (txn s).1 (txn s).2 := by
  rw [withBusRetry]
  generalize txn s = r
  obtain ⟨r, t⟩ := r
  cases r <;> rfl

theorem cuttable_withBusRetry {p : Profile} {row n : Nat} {α : Type} {txn : State → BusResult α × State}
    (h : Cuttable p row n txn) (k : Nat) : Cuttable p row n (withBusRetry txn k) := by
  induction k with
  | zero => exact h
  | succ k ih =>
    refine (h.bind fun r => ?_).congr (withBusRetry_succ_eq txn k)
    cases r with
    | timeout => exact ih
    | ok a => exact (blindRead_pure _).cuttable
    | statusFail => exact (blindRead_pure _).cuttable

theorem blindRead_withBusRetry {α : Type} {txn : State → BusResult α × State} (h : BlindRead txn) (k : Nat) :
    BlindRead (withBusRetry txn k) := by
  refine ⟨withBusRetry_keeps (R := BusOnly) BusOnly.trans h.bus k,
    withBusRetry_keeps (R := fun s t => t.die.arr = s.die.arr) (fun h k => k.trans h) h.arr k, fun s q => ?_⟩
  induction k generalizing s with
  | zero => exact h.blind s q
  | succ k ih =>
    rw [withBusRetry_succ_eq, withBusRetry_succ_eq, h.blind]
    generalize txn s = r
    obtain ⟨r, t⟩ := r
    cases r with
    | timeout => exact ih t
    | ok a => rfl
    | statusFail => rfl

/-! ## Reads (R196) -/

theorem dieRead_withPower (l : Latch) (n : Nat) (s : State) (q : Supply) :
    dieRead l n (s.withPower q) = ((dieRead l n s).1, (dieRead l n s).2.withPower q) := by
  cases l with
  | read addr =>
    by_cases h : (pageAddrOk s addr && decide (n ≤ s.die.unitSize)) = true
    · have h' : (pageAddrOk (s.withPower q) addr && decide (n ≤ (s.withPower q).die.unitSize)) = true := h
      rw [dieRead, dieRead, if_pos h, if_pos h']
      rfl
    · have h' : ¬(pageAddrOk (s.withPower q) addr && decide (n ≤ (s.withPower q).die.unitSize)) = true := h
      rw [dieRead, dieRead, if_neg h, if_neg h']
      exact drawBytes_withPower n s q
  | idle | prog | erase => exact drawBytes_withPower n s q

theorem readWaited_withPower (s : State) (q : Supply) : readWaited (s.withPower q) = (readWaited s).withPower q := by
  simp only [readWaited, draw_withPower]
  rfl

theorem blindRead_busReadConfirm (n : Nat) : BlindRead (busReadConfirm n) := by
  refine ⟨busOnly_busReadConfirm n, fun s => (sameDurable_busReadConfirm n s).arr, fun s q => ?_⟩
  simp only [busReadConfirm_eq, readWaited_withPower, dieRead_withPower, draw_withPower, withPower_cfg, withPower_die]
  split <;> rfl

theorem blindRead_memRead (row n : Nat) : BlindRead (memRead row n) := by
  refine ⟨busOnly_memRead row n, fun s => (sameDurable_memRead row n s).arr, fun s q => ?_⟩
  have hsetup : busReadSetup (addrBytes s.cfg 0 row) (s.withPower q) =
      (busReadSetup (addrBytes s.cfg 0 row) s).withPower q := rfl
  unfold memRead
  rw [withPower_cfg, hsetup, (blindRead_busReadConfirm n).blind]
  generalize busReadConfirm n (busReadSetup (addrBytes s.cfg 0 row) s) = r
  obtain ⟨_ | x, t⟩ := r <;> rfl

theorem blindRead_readRetry (row n : Nat) : BlindRead (readRetry row n) :=
  ⟨busOnly_readRetry row n, fun s => (sameDurable_readRetry row n s).arr, fun s q =>
    (blindRead_withBusRetry (blindRead_memRead row n) s.cfg.busRetryMax).blind s q⟩

/-! ## Programs and erases: one effect each (R197, R198) -/

/-- Bus work with one effect on the array: a supply that lasts for it pays it and the work is the same, a spent one stays spent. -/
structure OneEffect (p : Profile) (row n : Nat) {α : Type} (f : State → α × State) : Prop where
  step : ∀ s, CutStep p row n s (f s).2
  spent : ∀ s, s.env.power.spent = true → (f s).2.env.power.spent = true
  survives : ∀ s q q', s.env.power = .on → q.spend = some q' → f (s.withPower q) = ((f s).1, (f s).2.withPower q')

/-- From `s`, under any supply, `w` is the effect `done` on the rows, or `torn` where it is cut. -/
structure EffectAt (p : Profile) (row n : Nat) (w : State → State) (s : State) (done torn : State → State) : Prop where
  doneWork : CellWork done
  tornWork : CellWork torn
  eq : ∀ q, w (s.withPower q) = arrayEffect done torn (s.withPower q)
  outside : s.cfg.ok = true → RowOk p row s → ∀ t,
    SameOutside row n p.unitSize t.die.arr (done t).die.arr ∧ SameOutside row n p.unitSize t.die.arr (torn t).die.arr

section OneEffect

variable {p : Profile} {row n : Nat} {α β : Type}

theorem EffectAt.oneEffect {w : State → State} (h : ∀ s, ∃ done torn, EffectAt p row n w s done torn) :
    OneEffect p row n fun s => ((), w s) := by
  have hat : ∀ s, ∃ done torn, EffectAt p row n w s done torn ∧ w s = arrayEffect done torn s := fun s => by
    obtain ⟨done, torn, heffect⟩ := h s
    exact ⟨done, torn, heffect, heffect.eq s.env.power⟩
  refine ⟨fun s => ?_, fun s hspent => ?_, fun s q q' hon hspend => ?_⟩
  · obtain ⟨done, torn, heffect, heq⟩ := hat s
    rw [heq]
    refine ⟨busOnly_arrayEffect heffect.doneWork.bus heffect.tornWork.bus s, fun hon => ?_, arrayEffect_of_dark,
      fun hok hrow => ?_⟩
    · rw [arrayEffect_on hon, heffect.doneWork.power, hon]
    · exact sameOutside_arrayEffect s (fun t => (heffect.outside hok hrow t).1) fun t => (heffect.outside hok hrow t).2
  · obtain ⟨done, torn, heffect, heq⟩ := hat s
    rw [heq]
    exact arrayEffect_of_spent heffect.tornWork hspent
  · obtain ⟨done, torn, heffect, heq⟩ := hat s
    rw [heffect.eq, heq, arrayEffect_of_spend hspend, arrayEffect_on hon, heffect.doneWork.blind]

theorem OneEffect.cuttable {f : State → α × State} (h : OneEffect p row n f) : Cuttable p row n f := by
  refine ⟨h.step, fun s q hon => ?_⟩
  cases hq : q.spent with
  | true => exact .inl (h.spent _ hq)
  | false =>
    obtain ⟨q', hspend⟩ := Supply.exists_spend hq
    exact .inr ⟨rfl, q', h.survives s q q' hon hspend⟩

theorem OneEffect.congr {f g : State → α × State} (h : OneEffect p row n g) (he : ∀ s, f s = g s) : OneEffect p row n f := by
  rwa [funext he]

theorem OneEffect.after {b : State → β × State} {w : β → State → α × State} (hb : BlindRead b)
    (hw : ∀ x, OneEffect p row n (w x)) : OneEffect p row n fun s => w (b s).1 (b s).2 := by
  refine ⟨fun s => (hb.cutStep p row n s).trans ((hw _).step _), fun s hspent => (hw _).spent _ ?_, fun s q q' hon hspend => ?_⟩
  · rw [hb.power]
    exact hspent
  · rw [hb.blind]
    exact (hw _).survives _ q q' ((hb.power s).trans hon) hspend

theorem OneEffect.andThen {w : State → β × State} {c : β → State → α × State} (hw : OneEffect p row n w)
    (hc : ∀ x, BlindRead (c x)) : OneEffect p row n fun s => c (w s).1 (w s).2 := by
  refine ⟨fun s => (hw.step s).trans ((hc _).cutStep p row n _), fun s hspent => ?_, fun s q q' hon hspend => ?_⟩
  · rw [(hc _).power]
    exact hw.spent s hspent
  · rw [hw.survives s q q' hon hspend]
    exact (hc _).blind _ q'

end OneEffect

/-- The confirm cycle, its wait and its status draw (R186, R187): was the die ready in time, and has it passed. -/
def confirmSent (op : Byte) (T : Nat) (s : State) : (Bool × Bool) × State :=
  ((decide ((draw s).1 < T), confirmPasses T s), confirmed op T s)

theorem confirmSent_withPower (op : Byte) (T : Nat) (s : State) (q : Supply) :
    confirmSent op T (s.withPower q) = ((confirmSent op T s).1, (confirmSent op T s).2.withPower q) := by
  simp only [confirmSent, confirmPasses, confirmed, draw_withPower]
  rfl

theorem blindRead_confirmSent {setup : State → State} (op : State → Byte) (T : State → Nat) (hbus : ∀ s, BusOnly s (setup s))
    (harr : ∀ s, (setup s).die.arr = s.die.arr) (hsetup : ∀ s q, setup (s.withPower q) = (setup s).withPower q)
    (hop : ∀ s q, op (s.withPower q) = op s) (hT : ∀ s q, T (s.withPower q) = T s) :
    BlindRead fun s => confirmSent (op s) (T s) (setup s) := by
  refine ⟨fun s => (hbus s).trans (busOnly_confirmed _ _ _), harr, fun s q => ?_⟩
  simp only [hsetup, hop, hT]
  exact confirmSent_withPower _ _ _ q

theorem blindRead_checkStatus (ready : Bool) : BlindRead (checkStatus ready) := by
  cases ready with
  | true => exact ⟨busOnly_busReadStatus, fun _ => rfl, fun _ _ => rfl⟩
  | false => exact blindRead_pure _

/-- A row of the array fits its address cycles (R7, R62). -/
theorem RowOk.row_lt {p : Profile} {row : Nat} {s : State} (h : RowOk p row s) (hok : s.cfg.ok = true) :
    row < 256 ^ s.cfg.rowCycles := by
  obtain ⟨-, -, -, -, hrows, -⟩ := Profile.ok_bounds (heldProfile_ok hok h.held)
  exact h.inRange.trans hrows

/-- The effect that R66, R68 and R69 leave open, for a step they say nothing of. -/
theorem effectAt_stray {p : Profile} {row n : Nat} {w : State → State} {s : State}
    (heq : ∀ q, w (s.withPower q) = arrayEffect strayChange strayChange (s.withPower q))
    (hstray : s.cfg.ok = true → RowOk p row s → False) : EffectAt p row n w s strayChange strayChange :=
  ⟨cellWork_strayChange, cellWork_strayChange, heq, fun hok hrow => (hstray hok hrow).elim⟩

theorem effectAt_dieProgram {p : Profile} (row : Nat) {x : List Byte} (hx : x.length = p.unitSize) (passed : Bool) (s : State) :
    ∃ done torn, EffectAt p row 1 (fun t => dieProgram (.prog (addrBytes t.cfg 0 row) x) passed t) s done torn := by
  by_cases h : (pageAddrOk s (addrBytes s.cfg 0 row) && decide (x.length = s.die.unitSize)) = true
  · refine ⟨_, _,
      cellWork_ite passed (cellWork_setArr fun m => programRow m (addrRow s.cfg (addrBytes s.cfg 0 row)) x)
        (cellWork_tearRows (addrRow s.cfg (addrBytes s.cfg 0 row)) 1 s.die.unitSize),
      cellWork_tearRows (addrRow s.cfg (addrBytes s.cfg 0 row)) 1 s.die.unitSize, fun q => if_pos h, fun hok hrow t => ?_⟩
    obtain ⟨hu, -⟩ := hrow.geometry
    rw [addrRow_addrBytes _ _ _ (hrow.row_lt hok), hu]
    refine ⟨?_, sameOutside_tearRows 1 row p.unitSize t⟩
    cases passed
    · exact sameOutside_tearRows 1 row p.unitSize t
    · exact hx ▸ sameOutside_programRow t.die.arr row x
  · refine ⟨_, _, effectAt_stray (fun q => if_neg h) fun hok hrow => h ?_⟩
    rw [hrow.pageAddrOk hok, hx, hrow.geometry.1, decide_eq_true rfl]
    rfl

theorem effectAt_dieErase (p : Profile) (block : Nat) (passed : Bool) (s : State) :
    ∃ done torn, EffectAt p (block * p.pagesPerBlock) p.pagesPerBlock
      (fun t => dieErase (.erase (rowBytes t.cfg (block * p.pagesPerBlock))) passed t) s done torn := by
  by_cases h : blockAddrOk s (rowBytes s.cfg (block * p.pagesPerBlock)) = true
  · refine ⟨_, _,
      cellWork_ite passed
        (cellWork_setArr fun m =>
          eraseRows m (unLe (rowBytes s.cfg (block * p.pagesPerBlock))) s.die.pagesPerBlock s.die.unitSize)
        (cellWork_tearRows (unLe (rowBytes s.cfg (block * p.pagesPerBlock))) s.die.pagesPerBlock s.die.unitSize),
      cellWork_tearRows (unLe (rowBytes s.cfg (block * p.pagesPerBlock))) s.die.pagesPerBlock s.die.unitSize,
      fun q => if_pos h, fun hok hrow t => ?_⟩
    obtain ⟨hu, hppb, -⟩ := hrow.geometry
    rw [show unLe (rowBytes s.cfg (block * p.pagesPerBlock)) = _ from unLe_leBytes_of_lt (hrow.row_lt hok), hu, hppb]
    refine ⟨?_, sameOutside_tearRows _ _ p.unitSize t⟩
    cases passed
    · exact sameOutside_tearRows _ _ p.unitSize t
    · exact sameOutside_eraseRows _ t.die.arr _ p.unitSize
  · exact ⟨_, _, effectAt_stray (fun q => if_neg h) fun hok hrow => h (hrow.blockAddrOk hok)⟩

theorem oneEffect_memWrite {p : Profile} (row : Nat) {x : List Byte} (hx : x.length = p.unitSize) :
    OneEffect p row 1 (memWrite row x) := by
  have hsent : BlindRead fun s =>
      confirmSent s.cfg.opProgConfirm s.cfg.readyTimeoutProg (busProgSetup (addrBytes s.cfg 0 row) x s) :=
    blindRead_confirmSent _ _ (fun s => busOnly_busProgSetup _ x s) (fun _ => rfl) (fun _ _ => rfl) (fun _ _ => rfl)
      fun _ _ => rfl
  refine (OneEffect.after hsent fun r =>
    (EffectAt.oneEffect (effectAt_dieProgram row hx r.2)).andThen fun _ => blindRead_checkStatus r.1).congr fun s => ?_
  simp only [memWrite, busProgConfirm_eq]
  rfl

theorem oneEffect_memErase (p : Profile) (block : Nat) :
    OneEffect p (block * p.pagesPerBlock) p.pagesPerBlock (memErase p block) := by
  have hsent : BlindRead fun s =>
      confirmSent s.cfg.opEraseConfirm s.cfg.readyTimeoutErase
        (busEraseSetup (rowBytes s.cfg (block * p.pagesPerBlock)) s) :=
    blindRead_confirmSent _ _ (fun s => busOnly_busEraseSetup _ s) (fun _ => rfl) (fun _ _ => rfl) (fun _ _ => rfl)
      fun _ _ => rfl
  refine (OneEffect.after hsent fun r =>
    (EffectAt.oneEffect (effectAt_dieErase p block r.2)).andThen fun _ => blindRead_checkStatus r.1).congr fun s => ?_
  simp only [memErase, busEraseConfirm_eq]
  rfl

/-! ## The attempts of a unit (R285, R286) -/

section Attempts

variable {p : Profile} {row n : Nat}

theorem cuttable_readRetry (r k : Nat) : Cuttable p row n (readRetry r k) := (blindRead_readRetry r k).cuttable

theorem cuttable_writeRetry {x : List Byte} (hx : x.length = p.unitSize) : Cuttable p row 1 (writeRetry row x) :=
  Cuttable.reads (fun s => s.cfg.busRetryMax) (fun _ _ => rfl)
    fun k => cuttable_withBusRetry (oneEffect_memWrite row hx).cuttable k

theorem cuttable_eraseRetry (block : Nat) :
    Cuttable p (block * p.pagesPerBlock) p.pagesPerBlock (eraseRetry p block) :=
  Cuttable.reads (fun s => s.cfg.busRetryMax) (fun _ _ => rfl)
    fun k => cuttable_withBusRetry (oneEffect_memErase p block).cuttable k

end Attempts

/-- The attempt after a failed verify, with `k` of them left. -/
def nextVerify (attempt : Nat → State → Option Cause × State) : Nat → State → Option Cause × State
  | 0, s => (some .verify, s)
  | k + 1, s => attempt k s

/-- What a unit does after its program or erase: the check under verify. -/
def afterAttempt (verify : Bool) (check : State → Option Cause × State) : BusResult Unit → State → Option Cause × State
  | .timeout, s => (some .busTimeout, s)
  | .statusFail, s => (some .nandStatusFail, s)
  | .ok _, s => if verify = false then (none, s) else check s

/-- What a Write unit does with the read-back. -/
def afterReadBack (x : List Byte) (again : State → Option Cause × State) :
    BusResult (List Byte) → State → Option Cause × State
  | .ok y, s => if y = x then (none, s) else again s
  | .statusFail, s | .timeout, s => (some .busTimeout, s)

/-- What the blank check does with a page. -/
def afterPage (more : State → Option Bool × State) : BusResult (List Byte) → State → Option Bool × State
  | .ok y, s => if allFf y then more s else (some false, s)
  | .statusFail, s | .timeout, s => (none, s)

/-- What an Erase unit does with the blank check. -/
def afterBlankCheck (again : State → Option Cause × State) : Option Bool → State → Option Cause × State
  | none, s => (some .busTimeout, s)
  | some true, s => (none, s)
  | some false, s => again s

theorem writeOne_eq (p : Profile) (row : Nat) (x : List Byte) (k : Nat) (s : State) :
    writeOne p row x k s =
      afterAttempt s.op.optVerify
        (fun t =>
          afterReadBack x (nextVerify (writeOne p row x) k) (readRetry row p.unitSize t).1 (readRetry row p.unitSize t).2)
        (writeRetry row x s).1 (writeRetry row x s).2 := by
  rw [writeOne.eq_def]
  dsimp only
  obtain ⟨w, t⟩ := writeRetry row x s
  cases w with
  | timeout | statusFail => rfl
  | ok a =>
    simp only [afterAttempt]
    obtain ⟨y, v⟩ := readRetry row p.unitSize t
    cases y with
    | timeout | statusFail => rfl
    | ok y => cases k <;> rfl

theorem blankCheck_succ_eq (u row n : Nat) (s : State) :
    blankCheck u row (n + 1) s = afterPage (blankCheck u (row + 1) n) (readRetry row u s).1 (readRetry row u s).2 := by
  rw [blankCheck]
  obtain ⟨y, t⟩ := readRetry row u s
  cases y <;> rfl

theorem eraseOne_eq (p : Profile) (block k : Nat) (s : State) :
    eraseOne p block k s =
      afterAttempt s.op.optVerify
        (fun t =>
          afterBlankCheck (nextVerify (eraseOne p block) k)
            (blankCheck p.unitSize (block * p.pagesPerBlock) p.pagesPerBlock t).1
            (blankCheck p.unitSize (block * p.pagesPerBlock) p.pagesPerBlock t).2)
        (eraseRetry p block s).1 (eraseRetry p block s).2 := by
  rw [eraseOne.eq_def]
  dsimp only
  obtain ⟨w, t⟩ := eraseRetry p block s
  cases w with
  | timeout | statusFail => rfl
  | ok a =>
    simp only [afterAttempt]
    obtain ⟨b, v⟩ := blankCheck p.unitSize (block * p.pagesPerBlock) p.pagesPerBlock t
    match b, k with
    | none, _ | some true, _ | some false, 0 | some false, k + 1 => rfl

section Attempts

variable {p : Profile} {row n : Nat}

theorem cuttable_nextVerify {attempt : Nat → State → Option Cause × State} (k : Nat)
    (h : ∀ j, j < k → Cuttable p row n (attempt j)) : Cuttable p row n (nextVerify attempt k) := by
  cases k with
  | zero => exact (blindRead_pure _).cuttable
  | succ k => exact h k (Nat.lt_succ_self k)

theorem cuttable_afterAttempt {check : State → Option Cause × State} (v : Bool) (h : Cuttable p row n check)
    (r : BusResult Unit) : Cuttable p row n (afterAttempt v check r) := by
  match r, v with
  | .timeout, _ | .statusFail, _ | .ok _, false => exact (blindRead_pure _).cuttable
  | .ok _, true => exact h

theorem cuttable_afterReadBack {x : List Byte} {again : State → Option Cause × State} (h : Cuttable p row n again)
    (r : BusResult (List Byte)) : Cuttable p row n (afterReadBack x again r) := by
  cases r with
  | ok y =>
    by_cases hy : y = x
    · exact (blindRead_pure none).cuttable.congr fun s => if_pos hy
    · exact h.congr fun s => if_neg hy
  | timeout | statusFail => exact (blindRead_pure _).cuttable

theorem cuttable_afterPage {more : State → Option Bool × State} (h : Cuttable p row n more) (r : BusResult (List Byte)) :
    Cuttable p row n (afterPage more r) := by
  cases r with
  | ok y =>
    by_cases hy : allFf y = true
    · exact h.congr fun s => if_pos hy
    · exact (blindRead_pure (some false)).cuttable.congr fun s => if_neg hy
  | timeout | statusFail => exact (blindRead_pure _).cuttable

theorem cuttable_afterBlankCheck {again : State → Option Cause × State} (h : Cuttable p row n again) (b : Option Bool) :
    Cuttable p row n (afterBlankCheck again b) := by
  match b with
  | none | some true => exact (blindRead_pure _).cuttable
  | some false => exact h

theorem cuttable_writeOne {x : List Byte} (hx : x.length = p.unitSize) (k : Nat) : Cuttable p row 1 (writeOne p row x k) := by
  induction k using Nat.strongRecOn with
  | _ k ih =>
    have hcheck := (cuttable_readRetry row p.unitSize).bind fun r =>
      cuttable_afterReadBack (x := x) (cuttable_nextVerify k ih) r
    exact (Cuttable.reads (fun s => s.op.optVerify) (fun _ _ => rfl) fun v =>
      (cuttable_writeRetry hx).bind (cuttable_afterAttempt v hcheck)).congr (writeOne_eq p row x k)

theorem cuttable_blankCheck (u r k : Nat) : Cuttable p row n (blankCheck u r k) := by
  induction k generalizing r with
  | zero => exact (blindRead_pure (some true)).cuttable.congr fun _ => by rw [blankCheck]
  | succ k ih => exact ((cuttable_readRetry r u).bind (cuttable_afterPage (ih (r + 1)))).congr (blankCheck_succ_eq u r k)

theorem cuttable_eraseOne (block k : Nat) :
    Cuttable p (block * p.pagesPerBlock) p.pagesPerBlock (eraseOne p block k) := by
  induction k using Nat.strongRecOn with
  | _ k ih =>
    have hcheck := (cuttable_blankCheck p.unitSize (block * p.pagesPerBlock) p.pagesPerBlock).bind
      (cuttable_afterBlankCheck (cuttable_nextVerify k ih))
    exact (Cuttable.reads (fun s => s.op.optVerify) (fun _ _ => rfl) fun v =>
      (cuttable_eraseRetry block).bind (cuttable_afterAttempt v hcheck)).congr (eraseOne_eq p block k)

end Attempts

/-! ## The record under a failing supply (R251, R252, R416) -/

/-- Work from `s` that writes the record at most once, and before any other effect: a spent supply leaves the record, another one
the record that the work writes. -/
def RecordAt (h : State → State) (s : State) : Prop :=
  ∀ q, (h (s.withPower q)).cp = if q.spent then s.cp else (h s).cp

/-- Work from `s` that writes the record at most once: a failing supply leaves the record as it was or whole. -/
def RecordCutAt (h : State → State) (s : State) : Prop :=
  ∀ q, (h (s.withPower q)).cp = s.cp ∨ q.spent = false ∧ (h (s.withPower q)).cp = (h s).cp

theorem RecordAt.cut {h : State → State} {s : State} (hr : RecordAt h s) : RecordCutAt h s := by
  intro q
  rw [hr q]
  cases q.spent
  · exact .inr ⟨rfl, rfl⟩
  · exact .inl rfl

theorem recordAt_of_same {h : State → State} {s : State} (hsame : ∀ q, (h (s.withPower q)).cp = s.cp) : RecordAt h s := by
  intro q
  rw [hsame q, show (h s).cp = s.cp from hsame s.env.power, ite_self]

/-- Only the record counts, and the work may start from another state with the same one. -/
theorem RecordAt.congr {g h : State → State} {s t : State} (hr : RecordAt g t) (hcp : t.cp = s.cp)
    (hpower : t.env.power = s.env.power) (he : ∀ q, (h (s.withPower q)).cp = (g (t.withPower q)).cp) : RecordAt h s := by
  have hlasts : (h s).cp = (g t).cp := (he s.env.power).trans (by rw [← hpower, withPower_same])
  intro q
  rw [he q, hr q, hcp, hlasts]

theorem RecordCutAt.congr {g h : State → State} {s : State} (hr : RecordCutAt g s)
    (he : ∀ q, h (s.withPower q) = g (s.withPower q)) : RecordCutAt h s := by
  have hlasts : h s = g s := he s.env.power
  intro q
  rw [he q, hlasts]
  exact hr q

theorem recordAt_recordEffect {f : State → State} {s : State} (hon : s.env.power = .on)
    (hf : ∀ q, (f (s.withPower q)).cp = (f s).cp) : RecordAt (recordEffect f) s := by
  have hlasts : (recordEffect f s).cp = (f s).cp := by simp [recordEffect, hon]
  intro q
  cases hq : q.spent with
  | true => exact recordEffect_of_spent hq
  | false =>
    obtain ⟨q', hspend⟩ := Supply.exists_spend hq
    rw [recordEffect_of_spend hspend, hf, hlasts]
    rfl

theorem recordAt_clearCp {s : State} (hon : s.env.power = .on) : RecordAt clearCp s :=
  recordAt_recordEffect hon fun _ => rfl

theorem recordAt_saveProgress (p : Profile) {s : State} (hon : s.env.power = .on) : RecordAt (saveProgress p) s :=
  recordAt_recordEffect hon fun _ => rfl

/-- The state with the unit counted and the cursor moved on (R283). -/
def unitCounted (p : Profile) (s : State) : State :=
  { s with op := advanceCursor s.cfg p { s.op with opDone := s.op.opDone + 1 } }

theorem recordAt_finishUnit (p : Profile) {s : State} (hon : s.env.power = .on) : RecordAt (finishUnit p) s := by
  have hclear : RecordAt clearCp { unitCounted p s with seq := .completed } := recordAt_clearCp hon
  have hsave : RecordAt (saveProgress p) (unitCounted p s) := recordAt_saveProgress p hon
  by_cases hlast : (unitCounted p s).op.opDone = (unitCounted p s).op.opTotal
  · have hfinish : ∀ q, finishUnit p (s.withPower q) =
        emitComplete (emitProgress (clearCp (State.withPower { unitCounted p s with seq := .completed } q))) :=
      fun q => if_pos hlast
    exact hclear.congr rfl rfl fun q => by rw [hfinish q]; rfl
  · by_cases hblock : (unitCounted p s).op.curPage.toNat = 0
    · have hfinish : ∀ q, finishUnit p (s.withPower q) = emitProgress (saveProgress p ((unitCounted p s).withPower q)) :=
        fun q => (if_neg hlast).trans (if_pos hblock)
      exact hsave.congr rfl rfl fun q => by rw [hfinish q]; rfl
    · have hfinish : ∀ q, finishUnit p (s.withPower q) = emitProgress ((unitCounted p s).withPower q) :=
        fun q => (if_neg hlast).trans (if_neg hblock)
      exact recordAt_of_same fun q => by rw [hfinish q]; rfl

theorem recordAt_finishWrite (p : Profile) (x : List Byte) {s : State} (hon : s.env.power = .on) :
    RecordAt (finishWrite p x) s :=
  recordAt_finishUnit (s := { updateChunk p x s with op := { (updateChunk p x s).op with frameErrCnt := 0 } }) p hon

/-- The acknowledgement and the first progress frame of an operation (R279). -/
def acknowledged (info : Byte) (s : State) : State := emitProgress (emit (.rspAck s.op.opKind info) s)

theorem recordAt_announce (info : Byte) {s : State} (hon : s.env.power = .on) : RecordAt (announce info) s := by
  have hclear : RecordAt clearCp { acknowledged info s with seq := .completed } := recordAt_clearCp hon
  by_cases hlast : s.op.opDone = s.op.opTotal
  · have hanswer : ∀ q, announce info (s.withPower q) =
        emitComplete (clearCp (State.withPower { acknowledged info s with seq := .completed } q)) :=
      fun q => if_pos hlast
    exact hclear.congr rfl rfl fun q => by rw [hanswer q]; rfl
  · have hanswer : ∀ q, announce info (s.withPower q) = (acknowledged info s).withPower q := fun q => if_neg hlast
    exact recordAt_of_same fun q => by rw [hanswer q]; rfl

/-- What a Read unit does with the row (R282). -/
def afterRowRead (p : Profile) : BusResult (List Byte) → State → State
  | .ok x, s =>
    finishUnit p (emit (.rspData (encodeUnit s.cfg.maxRun x s.op.optCompress s.op.optSkipBlank)) (updateChunk p x s))
  | .statusFail, s | .timeout, s => fail .busTimeout s

/-- What a unit does after its attempts: the end of the unit, or the failure (R285, R286). -/
def endUnit (finish : State → State) : Option Cause → State → State
  | some c, s => fail c s
  | none, s => finish s

theorem recordAt_afterRowRead (p : Profile) (r : BusResult (List Byte)) {s : State} (hon : s.env.power = .on) :
    RecordAt (afterRowRead p r) s := by
  cases r with
  | ok x =>
    exact recordAt_finishUnit p
      (s := emit (.rspData (encodeUnit s.cfg.maxRun x s.op.optCompress s.op.optSkipBlank)) (updateChunk p x s)) hon
  | timeout | statusFail => exact recordAt_of_same fun _ => rfl

theorem recordAt_endUnit {finish : State → State} (c : Option Cause) {s : State} (hfinish : RecordAt finish s) :
    RecordAt (endUnit finish c) s := by
  cases c with
  | some c => exact recordAt_of_same fun _ => rfl
  | none => exact hfinish

theorem BlindRead.recordAt {α : Type} {f : State → α × State} {g : α → State → State} (hf : BlindRead f) {s : State}
    (hg : RecordAt (g (f s).1) (f s).2) : RecordAt (fun t => g (f t).1 (f t).2) s := by
  intro q
  dsimp only
  rw [hf.blind, hg q, (hf.bus s).cp]

/-- Bus work, then work on the record: the failing supply is spent in the first, or is there for the second. -/
theorem Cuttable.recordCutAt {p : Profile} {row n : Nat} {α : Type} {f : State → α × State} {g : α → State → State}
    (hf : Cuttable p row n f) (hg : ∀ a t, t.env.power = .on → RecordAt (g a) t) {s : State} (hon : s.env.power = .on) :
    RecordCutAt (fun t => g (f t).1 (f t).2) s := by
  intro q
  have hcp := (hf.step s).bus.cp
  rcases hf.mirrors s q hon with hspent | ⟨hlasts, q', heq⟩
  · have hkept := hg (f (s.withPower q)).1 ((f (s.withPower q)).2.withPower .on) rfl (f (s.withPower q)).2.env.power
    rw [if_pos hspent] at hkept
    exact .inl (hkept.trans (hf.step (s.withPower q)).bus.cp)
  · dsimp only
    rw [heq, ← hcp]
    exact ((hg _ _ ((hf.step s).on hon)).cut q').imp_right fun h => ⟨hlasts, h.2⟩

theorem readUnit_eq (p : Profile) (s : State) :
    readUnit p s =
      afterRowRead p (readRetry (cursorRow p s) p.unitSize s).1 (readRetry (cursorRow p s) p.unitSize s).2 := by
  have hbus := (busOnly_readRetry (cursorRow p s) p.unitSize s).registers
  have hcfg : (readRetry (cursorRow p s) p.unitSize s).2.cfg = s.cfg := by rw [hbus]
  have hop : (readRetry (cursorRow p s) p.unitSize s).2.op = s.op := by rw [hbus]
  unfold readUnit
  dsimp only
  generalize readRetry (cursorRow p s) p.unitSize s = rt at hcfg hop ⊢
  obtain ⟨r, t⟩ := rt
  cases r with
  | ok x => simp only [afterRowRead, ← hcfg, ← hop]
  | timeout | statusFail => rfl

theorem writeUnit_eq (p : Profile) (x : List Byte) (s : State) :
    writeUnit p x s =
      if s.op.optSkipBlank && allFf x then finishWrite p x s
      else
        endUnit (finishWrite p x) (writeOne p (cursorRow p s) x s.cfg.verifyRetryMax s).1
          (writeOne p (cursorRow p s) x s.cfg.verifyRetryMax s).2 := by
  unfold writeUnit
  obtain ⟨c, t⟩ := writeOne p (cursorRow p s) x s.cfg.verifyRetryMax s
  cases c <;> rfl

theorem eraseUnit_eq (p : Profile) (s : State) :
    eraseUnit p s =
      endUnit (finishUnit p) (eraseOne p s.op.curBlock.toNat s.cfg.verifyRetryMax s).1
        (eraseOne p s.op.curBlock.toNat s.cfg.verifyRetryMax s).2 := by
  unfold eraseUnit
  obtain ⟨c, t⟩ := eraseOne p s.op.curBlock.toNat s.cfg.verifyRetryMax s
  cases c <;> rfl

theorem recordAt_readUnit (p : Profile) {s : State} (hon : s.env.power = .on) : RecordAt (readUnit p) s := by
  have hread := blindRead_readRetry (cursorRow p s) p.unitSize
  exact (hread.recordAt (recordAt_afterRowRead p _ ((hread.power s).trans hon))).congr rfl rfl
    fun q => congrArg State.cp (readUnit_eq p (s.withPower q))

theorem recordCutAt_writeUnit {p : Profile} {x : List Byte} (hx : x.length = p.unitSize) {s : State}
    (hon : s.env.power = .on) : RecordCutAt (writeUnit p x) s := by
  by_cases hskip : (s.op.optSkipBlank && allFf x) = true
  · exact (recordAt_finishWrite p x hon).cut.congr fun q => if_pos hskip
  · exact ((cuttable_writeOne (row := cursorRow p s) hx s.cfg.verifyRetryMax).recordCutAt
      (fun c _ ht => recordAt_endUnit c (recordAt_finishWrite p x ht)) hon).congr
      fun q => (writeUnit_eq p x (s.withPower q)).trans (if_neg hskip)

theorem recordCutAt_eraseUnit (p : Profile) {s : State} (hon : s.env.power = .on) : RecordCutAt (eraseUnit p) s :=
  ((cuttable_eraseOne (p := p) s.op.curBlock.toNat s.cfg.verifyRetryMax).recordCutAt
    (fun c _ ht => recordAt_endUnit c (recordAt_finishUnit p ht)) hon).congr fun q => eraseUnit_eq p (s.withPower q)

/-- What `start_op` does after the resume decision (R279). -/
def afterDecision (p : Profile) (start : Nat) : Resume → State → State
  | .busTimeout, s => fail .busTimeout s
  | .start info done0, s => announce info (if info = 1 then takeOver p start done0 s else s)

theorem runOp_eq (p : Profile) (kind : Byte) (r : Request) (start total : Nat) (s : State) :
    runOp p kind r start total s =
      afterDecision p start (resumeDecision p kind start total (beginOp p kind r start total s)).1
        (resumeDecision p kind start total (beginOp p kind r start total s)).2 := by
  unfold runOp
  obtain ⟨d, t⟩ := resumeDecision p kind start total (beginOp p kind r start total s)
  cases d <;> rfl

/-- What a Write's resume decision does with the last block's read-back: resume, start anew, or fail (R255). -/
def afterCheckRead (p : Profile) (kind : Byte) (start : Nat) : BusResult (List Byte) → State → Resume × State
  | .ok x, s =>
    if chunkHash s.cfg x = s.cp.hash then (.start 1 (cpDone s.cfg p s.cp kind start), s) else (.start 2 0, clearCp s)
  | .statusFail, s | .timeout, s => (.busTimeout, s)

section Decision

variable {p : Profile} {kind : Byte} {r : Request} {start total : Nat} {s : State}

theorem resumeDecision_write (h : Resumable p kind start total s) (hkind : kind = s.cfg.commands.write) :
    resumeDecision p kind start total s =
      afterCheckRead p kind start (readRetry (cpRow p s.cp) p.unitSize s).1 (readRetry (cpRow p s.cp) p.unitSize s).2 := by
  have hbus := (busOnly_readRetry (cpRow p s.cp) p.unitSize s).registers
  have hcfg : (readRetry (cpRow p s.cp) p.unitSize s).2.cfg = s.cfg := by rw [hbus]
  have hcp : (readRetry (cpRow p s.cp) p.unitSize s).2.cp = s.cp := by rw [hbus]
  unfold resumeDecision
  rw [if_neg (by simp [h.valid]), if_neg h.not_stale, if_pos hkind]
  dsimp only
  generalize readRetry (cpRow p s.cp) p.unitSize s = rt at hcfg hcp ⊢
  obtain ⟨r, t⟩ := rt
  cases r with
  | ok x => simp only [afterCheckRead, ← hcfg, ← hcp]
  | timeout | statusFail => rfl

theorem resumable_of_not_stale (hvalid : s.cp.valid = true)
    (h : ¬(s.cp.kind ≠ kind ∨ s.ses.resumeMode = false ∨ cpInRange s.cfg p s.cp kind start total = false)) :
    Resumable p kind start total s := by
  simp only [not_or, not_not, Bool.not_eq_false] at h
  obtain ⟨hkind, hmode, hrange⟩ := h
  exact ⟨hvalid, hkind, hmode, hrange⟩

/-- The state at the resume decision: a fresh operation with units to do, the supply on. -/
structure AtDecision (p : Profile) (kind : Byte) (r : Request) (start total : Nat) (s : State) : Prop where
  on : s.env.power = .on
  op : s.op = freshOp s.cfg p kind r start total
  some : 1 ≤ total
  bound : total < 2 ^ 32

theorem AtDecision.of_busOnly {t : State} (h : AtDecision p kind r start total s) (hbus : BusOnly s t)
    (hpower : t.env.power = s.env.power) : AtDecision p kind r start total t :=
  ⟨hpower.trans h.on, by rw [hbus.registers]; exact h.op, h.some, h.bound⟩

/-- A resumed start writes the record where nothing is left to do. -/
theorem AtDecision.recordAt_resume (h : AtDecision p kind r start total s) (done0 : Nat) :
    RecordAt (fun t => afterDecision p start (.start 1 done0) t) s :=
  (recordAt_announce (s := takeOver p start done0 s) 1 h.on).congr rfl rfl fun _ => rfl

/-- A fresh start leaves the record that the resume decision cleared. -/
theorem AtDecision.recordAt_discard (h : AtDecision p kind r start total s) (info : Byte) :
    RecordAt (fun t => announce info (clearCp t)) s := by
  refine (recordAt_clearCp h.on).congr rfl rfl fun q => ?_
  have hop : (clearCp (s.withPower q)).op = freshOp (clearCp (s.withPower q)).cfg p kind r start total := by
    rw [(clearCp_frame (s.withPower q)).1]
    exact h.op
  rw [announce_fresh hop h.some h.bound]

theorem AtDecision.recordAt_afterCheckRead (h : AtDecision p kind r start total s) (x : BusResult (List Byte)) :
    RecordAt (fun t => afterDecision p start (afterCheckRead p kind start x t).1 (afterCheckRead p kind start x t).2) s := by
  cases x with
  | timeout | statusFail => exact recordAt_of_same fun _ => rfl
  | ok x =>
    by_cases hhash : chunkHash s.cfg x = s.cp.hash
    · have hread : ∀ q, afterCheckRead p kind start (.ok x) (s.withPower q) =
          (.start 1 (cpDone s.cfg p s.cp kind start), s.withPower q) := fun q => if_pos hhash
      exact (h.recordAt_resume (cpDone s.cfg p s.cp kind start)).congr rfl rfl fun q => by rw [hread q]
    · have hread : ∀ q, afterCheckRead p kind start (.ok x) (s.withPower q) = (.start 2 0, clearCp (s.withPower q)) :=
        fun q => if_neg hhash
      exact (h.recordAt_discard 2).congr rfl rfl fun q => by rw [hread q]; rfl

/-- Whatever the resume decision is, the record is written at most once (R255, R279). -/
theorem AtDecision.recordAt (h : AtDecision p kind r start total s) :
    RecordAt (fun t =>
      afterDecision p start (resumeDecision p kind start total t).1 (resumeDecision p kind start total t).2) s := by
  cases hvalid : s.cp.valid with
  | false =>
    have hnone : ∀ q, resumeDecision p kind start total (s.withPower q) = (.start 0 0, s.withPower q) :=
      fun q => resumeDecision_none hvalid
    exact (recordAt_announce 0 h.on).congr rfl rfl fun q => by rw [hnone q]; rfl
  | true =>
    by_cases hstale : s.cp.kind ≠ kind ∨ s.ses.resumeMode = false ∨ cpInRange s.cfg p s.cp kind start total = false
    · have hdiscard : ∀ q, resumeDecision p kind start total (s.withPower q) = (.start 3 0, clearCp (s.withPower q)) :=
        fun q => resumeDecision_stale hvalid hstale
      exact (h.recordAt_discard 3).congr rfl rfl fun q => by rw [hdiscard q]; rfl
    · have hfits : ∀ q, Resumable p kind start total (s.withPower q) :=
        fun q => resumable_of_not_stale (s := s.withPower q) hvalid hstale
      by_cases hkind : kind = s.cfg.commands.write
      · have hread := blindRead_readRetry (cpRow p s.cp) p.unitSize
        have hat := h.of_busOnly (hread.bus s) (hread.power s)
        exact (hread.recordAt (g := fun x t =>
          afterDecision p start (afterCheckRead p kind start x t).1 (afterCheckRead p kind start x t).2)
          (hat.recordAt_afterCheckRead _)).congr rfl rfl fun q => by rw [resumeDecision_write (hfits q) hkind]; rfl
      · have hresume : ∀ q, resumeDecision p kind start total (s.withPower q) =
            (.start 1 (cpDone s.cfg p s.cp kind start), s.withPower q) := fun q => resumeDecision_trusted (hfits q) hkind
        exact (h.recordAt_resume (cpDone s.cfg p s.cp kind start)).congr rfl rfl fun q => by rw [hresume q]

end Decision

theorem recordAt_runOp {p : Profile} {kind : Byte} {r : Request} {start total : Nat} {s : State} (hon : s.env.power = .on)
    (h1 : 1 ≤ total) (h2 : total < 2 ^ 32) : RecordAt (runOp p kind r start total) s := by
  have hat : AtDecision p kind r start total (beginOp p kind r start total s) := by
    rw [beginOp_eq]
    exact ⟨hon, rfl, h1, h2⟩
  exact hat.recordAt.congr rfl rfl fun q => congrArg State.cp (runOp_eq p kind r start total (s.withPower q))

/-! ## The record over an engine step (R400, R416) -/

/-- A step from `s` under a failing supply leaves the record as it was or as the whole step does; before the first effect, as it
was. -/
def StepRecordAt (h : State → Host.Outcome State Fault Refusal) (s : State) : Prop :=
  ∀ q t, h (s.withPower q) = .next t → t.cp = s.cp ∨ q.spent = false ∧ ∃ u, h s = .next u ∧ t.cp = u.cp

/-- With no byte to service the engine runs the unit that is enabled (R272). -/
theorem engineStep_of_no_byte {s : State} (h : s.rxq = []) :
    engineStep s =
      if s.seq = .running ∧ s.op.opKind = s.cfg.commands.read then withProfile s fun p => .next (readUnit p s)
      else if s.seq = .running ∧ s.op.opKind = s.cfg.commands.erase then withProfile s fun p => .next (eraseUnit p s)
      else .next s := by
  simp only [engineStep, h]

section StepRecord

variable {s : State}

theorem RecordCutAt.step {h : State → State} (hr : RecordCutAt h s) : StepRecordAt (fun t => .next (h t)) s := by
  intro q t ht
  cases ht
  exact (hr q).imp_right fun ⟨hlasts, hcp⟩ => ⟨hlasts, h s, rfl, hcp⟩

theorem stepRecordAt_of_same {h : State → Host.Outcome State Fault Refusal}
    (hsame : ∀ q t, h (s.withPower q) = .next t → t.cp = s.cp) : StepRecordAt h s :=
  fun q t ht => .inl (hsame q t ht)

theorem StepRecordAt.congr {g h : State → Host.Outcome State Fault Refusal} (hr : StepRecordAt g s)
    (he : ∀ q, h (s.withPower q) = g (s.withPower q)) : StepRecordAt h s := by
  have hlasts : h s = g s := he s.env.power
  intro q t ht
  rw [hlasts]
  exact hr q t ((he q).symm.trans ht)

theorem stepRecordAt_withProfile {f : Profile → State → Host.Outcome State Fault Refusal}
    (hf : ∀ p, heldProfile s = some p → StepRecordAt (f p) s) : StepRecordAt (fun t => withProfile t fun p => f p t) s := by
  intro q t ht
  obtain ⟨p, hheld, ht⟩ := withProfile_next ht
  have hheld' : heldProfile s = some p := hheld
  refine (hf p hheld' q t ht).imp_right fun ⟨hlasts, u, hu, hcp⟩ => ⟨hlasts, u, ?_, hcp⟩
  simp only [withProfile, hheld', hu]

theorem stepRecordAt_accepted {handler : State → Host.Outcome State Fault Refusal} (k : Cmd)
    (hrun : StepRecordAt handler s) : StepRecordAt (fun t => accepted k t (handler t)) s := by
  cases ha : accept s.cfg k s.seq s.op.opKind with
  | accept =>
    refine hrun.congr fun q => ?_
    have ha' : accept (s.withPower q).cfg k (s.withPower q).seq (s.withPower q).op.opKind = .accept := ha
    simp only [accepted, ha']
  | reject cause =>
    refine stepRecordAt_of_same fun q t ht => ?_
    have ha' : accept (s.withPower q).cfg k (s.withPower q).seq (s.withPower q).op.opKind = .reject cause := ha
    simp only [accepted, ha'] at ht
    cases ht
    rfl

theorem stepRecordAt_startOp (kind : Byte) (r : Request) (hok : s.cfg.ok = true) (hon : s.env.power = .on) :
    StepRecordAt (startOp kind r) s := by
  by_cases hnone : s.ses.profile = 0xFF
  · refine stepRecordAt_of_same fun q t ht => ?_
    rw [startOp, if_pos (show (s.withPower q).ses.profile = 0xFF from hnone)] at ht
    cases ht
    rfl
  · refine (stepRecordAt_withProfile
      (f := fun p t =>
        match validate t.cfg p kind r with
        | none => .next (reject .badArgument kind t)
        | some (start, total) => .next (runOp p kind r start total t)) fun p hheld => ?_).congr
      fun q => if_neg hnone
    cases hvalid : validate s.cfg p kind r with
    | none =>
      refine stepRecordAt_of_same fun q t ht => ?_
      simp only [withPower_cfg, hvalid] at ht
      cases ht
      rfl
    | some range =>
      obtain ⟨start, total⟩ := range
      obtain ⟨h1, h2, -⟩ := validate_lt (heldProfile_ok hok hheld) hvalid
      refine (recordAt_runOp (p := p) (kind := kind) (r := r) (start := start) hon h1 h2).cut.step.congr fun q => ?_
      simp only [withPower_cfg, hvalid]

theorem stepRecordAt_onPause (hon : s.env.power = .on) : StepRecordAt onPause s := by
  by_cases hnone : s.op.opDone.toNat = 0
  · refine stepRecordAt_of_same fun q t ht => ?_
    rw [onPause, if_pos (show (s.withPower q).op.opDone.toNat = 0 from hnone)] at ht
    cases ht
    rfl
  · refine (stepRecordAt_withProfile
      (f := fun p t => .next (emit (.rspAck t.cfg.commands.pause 0) (saveProgress p { t with seq := .paused })))
      fun p _ => ?_).congr fun q => if_neg hnone
    have hsave : RecordAt (fun t => emit (.rspAck t.cfg.commands.pause 0) (saveProgress p { t with seq := .paused })) s :=
      (recordAt_saveProgress p (s := { s with seq := .paused }) hon).congr rfl rfl fun _ => rfl
    exact hsave.cut.step

theorem recordAt_onSetResume (mode : Byte) (hon : s.env.power = .on) : RecordAt (onSetResume mode) s := by
  by_cases hbad : 1 < mode.toNat
  · have hreject : ∀ q, onSetResume mode (s.withPower q) = reject .badArgument s.cfg.commands.setResume (s.withPower q) :=
      fun q => if_pos hbad
    exact recordAt_of_same fun q => by rw [hreject q]; rfl
  by_cases hoff : mode = 0
  · have hclear : ∀ q, onSetResume mode (s.withPower q) =
        emit (.rspAck s.cfg.commands.setResume 0)
          (clearCp (State.withPower { s with ses := { s.ses with resumeMode := false } } q)) :=
      fun q => (if_neg hbad).trans (if_pos hoff)
    exact (recordAt_clearCp (s := { s with ses := { s.ses with resumeMode := false } }) hon).congr rfl rfl
      fun q => by rw [hclear q]; rfl
  · have hset : ∀ q, onSetResume mode (s.withPower q) =
        emit (.rspAck s.cfg.commands.setResume 0)
          (State.withPower { s with ses := { s.ses with resumeMode := true } } q) :=
      fun q => (if_neg hbad).trans (if_neg hoff)
    exact recordAt_of_same fun q => by rw [hset q]; rfl

theorem stepRecordAt_onData (payload : List Byte) (hon : s.env.power = .on) : StepRecordAt (onData payload) s := by
  refine stepRecordAt_withProfile
    (f := fun p t =>
      match decodeUnit p.unitSize payload with
      | none => .next (reject .badData t.cfg.commands.data t)
      | some x => .next (writeUnit p x t)) fun p _ => ?_
  cases hunit : decodeUnit p.unitSize payload with
  | none =>
    refine stepRecordAt_of_same fun q t ht => ?_
    cases ht
    rfl
  | some x => exact (recordCutAt_writeUnit (decodeUnit_length hunit) hon).step

theorem stepRecordAt_exec (i : Instr) (hok : s.cfg.ok = true) (hon : s.env.power = .on) : StepRecordAt (exec i) s := by
  cases hunit : unitPayload i with
  | some payload =>
    exact (stepRecordAt_accepted .data (stepRecordAt_onData payload hon)).congr fun q => exec_of_unitPayload _ hunit
  | none =>
    cases i with
    | read r => exact (stepRecordAt_accepted .read (stepRecordAt_startOp s.cfg.commands.read r hok hon)).congr fun _ => rfl
    | write r => exact (stepRecordAt_accepted .write (stepRecordAt_startOp s.cfg.commands.write r hok hon)).congr fun _ => rfl
    | erase r => exact (stepRecordAt_accepted .erase (stepRecordAt_startOp s.cfg.commands.erase r hok hon)).congr fun _ => rfl
    | pause => exact stepRecordAt_accepted .pause (stepRecordAt_onPause hon)
    | setResume mode => exact stepRecordAt_accepted .setResume (recordAt_onSetResume mode hon).cut.step
    | _ => exact stepRecordAt_of_same fun q t ht => cp_of_exec (s := s.withPower q) hunit rfl nofun nofun ht

theorem onFrameError_cp (cause : Cause) (t : State) : (onFrameError cause t).cp = t.cp := by
  have hcount : (bumpFrameErr (reject cause 0x00 t)).2.cp = t.cp := by rw [bumpFrameErr_frame]; rfl
  unfold onFrameError
  dsimp only
  split
  · split <;> exact hcount
  · rfl

theorem stepRecordAt_serviceResult (r : RxResult) (hok : s.cfg.ok = true) (hon : s.env.power = .on) :
    StepRecordAt (serviceResult r) s := by
  cases r with
  | none =>
    refine stepRecordAt_of_same fun q t ht => ?_
    cases ht
    rfl
  | errChecksum | errLength =>
    refine stepRecordAt_of_same fun q t ht => ?_
    cases ht
    exact onFrameError_cp _ _
  | frame cmd payload =>
    cases hdecode : decodeCommand s.cfg cmd payload with
    | ok i =>
      refine (stepRecordAt_exec i hok hon).congr fun q => ?_
      simp only [serviceResult, dispatchFrame, withPower_cfg, hdecode]
    | error e =>
      refine stepRecordAt_of_same fun q t ht => ?_
      simp only [serviceResult, dispatchFrame, withPower_cfg, hdecode] at ht
      split at ht
      · next heq => cases heq
      · cases ht
        rfl
      · cases ht
        rfl

theorem stepRecordAt_engineStep (hok : s.cfg.ok = true) (hon : s.env.power = .on) : StepRecordAt engineStep s := by
  cases hrxq : s.rxq with
  | cons b rest =>
    have hservice : ∀ q, engineStep (s.withPower q) =
        serviceResult (rxByte s.cfg s.dec b).1 (State.withPower { s with rxq := rest, dec := (rxByte s.cfg s.dec b).2 } q) :=
      fun q => engineStep_of_byte (s := s.withPower q) hrxq
    intro q t ht
    rw [← withPower_same s, hservice s.env.power]
    rw [hservice q] at ht
    exact stepRecordAt_serviceResult (s := { s with rxq := rest, dec := (rxByte s.cfg s.dec b).2 }) _ hok hon q t ht
  | nil =>
    by_cases hread : s.seq = .running ∧ s.op.opKind = s.cfg.commands.read
    · refine (stepRecordAt_withProfile (f := fun p t => .next (readUnit p t)) fun p _ =>
        (recordAt_readUnit p hon).cut.step).congr fun q => ?_
      rw [engineStep_of_no_byte (s := s.withPower q) hrxq]
      exact if_pos hread
    · by_cases herase : s.seq = .running ∧ s.op.opKind = s.cfg.commands.erase
      · refine (stepRecordAt_withProfile (f := fun p t => .next (eraseUnit p t)) fun p _ =>
          (recordCutAt_eraseUnit p hon).step).congr fun q => ?_
        rw [engineStep_of_no_byte (s := s.withPower q) hrxq]
        exact (if_neg hread).trans (if_pos herase)
      · refine (recordAt_of_same (h := id) fun _ => rfl).cut.step.congr fun q => ?_
        rw [engineStep_of_no_byte (s := s.withPower q) hrxq]
        exact (if_neg hread).trans (if_neg herase)

end StepRecord

/-! ## The array over an engine step (R400, R416) -/

/-- A step aimed at `n` rows from `row` on: without power no cell moves, and no cell of another row of the array does. -/
structure CellsMove (p : Profile) (row n : Nat) (s t : State) : Prop where
  dark : s.env.power.Dark → t.die.arr = s.die.arr
  outside : s.cfg.ok = true → RowOk p row s → SameOutside row n p.unitSize s.die.arr t.die.arr

theorem cellsMove_of_same {p : Profile} {row n : Nat} {s t : State} (h : t.die.arr = s.die.arr) : CellsMove p row n s t :=
  ⟨fun _ => h, fun _ _ => h ▸ SameOutside.refl _ _ _ _⟩

theorem CutStep.cellsMove {p : Profile} {row n : Nat} {s t u : State} (h : CutStep p row n s t)
    (harr : u.die.arr = t.die.arr) : CellsMove p row n s u :=
  ⟨fun hd => harr.trans (h.dark hd).2, fun hok hrow => harr ▸ h.outside hok hrow⟩

theorem finishUnit_die (p : Profile) (s : State) : (finishUnit p s).die = s.die := by
  unfold finishUnit
  dsimp only
  split
  · simp [completeOp]
  · split <;> simp

theorem endUnit_die {finish : State → State} (hfinish : ∀ s, (finish s).die = s.die) (c : Option Cause) (s : State) :
    (endUnit finish c s).die = s.die := by
  cases c with
  | some c => rfl
  | none => exact hfinish s

theorem readUnit_arr (p : Profile) (s : State) : (readUnit p s).die.arr = s.die.arr := by
  have hread := (sameDurable_readRetry (cursorRow p s) p.unitSize s).arr
  rw [readUnit_eq]
  cases (readRetry (cursorRow p s) p.unitSize s).1 with
  | ok x => rwa [afterRowRead, finishUnit_die]
  | timeout | statusFail => exact hread

theorem cellsMove_writeUnit {p : Profile} {x : List Byte} (hx : x.length = p.unitSize) (s : State) :
    CellsMove p (cursorRow p s) 1 s (writeUnit p x s) := by
  have hfinish : ∀ t, (finishWrite p x t).die = t.die := fun t => finishUnit_die p _
  rw [writeUnit_eq]
  split
  · exact cellsMove_of_same (congrArg Die.arr (hfinish s))
  · exact ((cuttable_writeOne hx _).step s).cellsMove (congrArg Die.arr (endUnit_die hfinish _ _))

theorem cellsMove_eraseUnit (p : Profile) (s : State) :
    CellsMove p (s.op.curBlock.toNat * p.pagesPerBlock) p.pagesPerBlock s (eraseUnit p s) := by
  rw [eraseUnit_eq]
  exact ((cuttable_eraseOne _ _).step s).cellsMove (congrArg Die.arr (endUnit_die (finishUnit_die p) _ _))

/-- Which cells a step can move: none, those of a running Write's row, or those of a running Erase's block. -/
inductive StepCells (s t : State) : Prop
  | none (h : t.die.arr = s.die.arr)
  | write (p : Profile) (hrunning : s.seq = .running) (hkind : s.op.opKind = s.cfg.commands.write)
      (hheld : heldProfile s = some p) (h : CellsMove p (cursorRow p s) 1 s t)
  | erase (p : Profile) (hrunning : s.seq = .running) (hkind : s.op.opKind = s.cfg.commands.erase)
      (hheld : heldProfile s = some p)
      (h : CellsMove p (s.op.curBlock.toNat * p.pagesPerBlock) p.pagesPerBlock s t)

theorem stepCells_onData {payload : List Byte} {s t : State} (hrunning : s.seq = .running)
    (hkind : s.op.opKind = s.cfg.commands.write) (h : onData payload s = .next t) : StepCells s t := by
  obtain ⟨p, hheld, h⟩ := withProfile_next h
  cases hunit : decodeUnit p.unitSize payload with
  | none =>
    rw [hunit] at h
    cases h
    exact .none rfl
  | some x =>
    rw [hunit] at h
    cases h
    exact .write p hrunning hkind hheld (cellsMove_writeUnit (decodeUnit_length hunit) s)

theorem stepCells_exec {i : Instr} {s t : State} (hi : i.space = .command) (h : exec i s = .next t) : StepCells s t := by
  cases hunit : unitPayload i with
  | some payload =>
    rw [exec_of_unitPayload s hunit] at h
    refine accepted_keeps (R := StepCells) (fun _ _ => .none rfl) (fun ha hrun => ?_) h
    obtain ⟨hrunning, hkind⟩ : s.seq = .running ∧ s.op.opKind = s.cfg.commands.write := by simpa [accept] using ha
    exact stepCells_onData hrunning hkind hrun
  | none =>
    refine .none (arr_of_exec hunit ?_ ?_ h)
    · rintro rfl
      cases hi
    · rintro rfl
      cases hi

theorem onFrameError_die (cause : Cause) (s : State) : (onFrameError cause s).die = s.die := by
  have hcount : (bumpFrameErr (reject cause 0x00 s)).2.die = s.die := by rw [bumpFrameErr_frame]; rfl
  unfold onFrameError
  dsimp only
  split
  · split <;> exact hcount
  · rfl

theorem stepCells_serviceResult {r : RxResult} {s t : State} (h : serviceResult r s = .next t) : StepCells s t := by
  cases r with
  | none =>
    cases h
    exact .none rfl
  | errChecksum | errLength =>
    cases h
    exact .none (congrArg Die.arr (onFrameError_die _ s))
  | frame cmd payload =>
    unfold serviceResult dispatchFrame at h
    dsimp only at h
    split at h
    · next i hdecode => exact stepCells_exec (operands_of_decodeCommand hdecode).1 h
    · cases h
      exact .none rfl
    · cases h
      exact .none rfl

/-- The bytes taken off `RXQ` and the decoder's registers do not count. -/
theorem StepCells.of_received {q : List Byte} {d : Decoder} {s t : State} (h : StepCells { s with rxq := q, dec := d } t) :
    StepCells s t := by
  cases h with
  | none h => exact .none h
  | write p hrunning hkind hheld h =>
    exact .write p hrunning hkind hheld ⟨h.dark, fun hok hrow => h.outside hok ⟨hrow.held, hrow.agrees, hrow.inRange⟩⟩
  | erase p hrunning hkind hheld h =>
    exact .erase p hrunning hkind hheld ⟨h.dark, fun hok hrow => h.outside hok ⟨hrow.held, hrow.agrees, hrow.inRange⟩⟩

theorem stepCells_engineStep {s t : State} (h : engineStep s = .next t) : StepCells s t := by
  cases hrxq : s.rxq with
  | cons b rest =>
    rw [engineStep_of_byte hrxq] at h
    exact (stepCells_serviceResult h).of_received
  | nil =>
    rw [engineStep_of_no_byte hrxq] at h
    split at h
    · obtain ⟨p, -, h⟩ := withProfile_next h
      cases h
      exact .none (readUnit_arr p s)
    · split at h
      · next herase =>
        obtain ⟨hrunning, hkind⟩ := herase
        obtain ⟨p, hheld, h⟩ := withProfile_next h
        cases h
        exact .erase p hrunning hkind hheld (cellsMove_eraseUnit p s)
      · cases h
        exact .none rfl

theorem StepCells.arr_of_dark {s t : State} (h : StepCells s t) (hdark : s.env.power.Dark) : t.die.arr = s.die.arr := by
  cases h with
  | none h => exact h
  | write p _ _ _ h | erase p _ _ _ h => exact h.dark hdark

theorem StepCells.arr_of_idle {s t : State} (h : StepCells s t)
    (hidle : ¬(s.seq = .running ∧ (s.op.opKind = s.cfg.commands.write ∨ s.op.opKind = s.cfg.commands.erase))) :
    t.die.arr = s.die.arr := by
  cases h with
  | none h => exact h
  | write p hrunning hkind _ _ => exact absurd ⟨hrunning, .inl hkind⟩ hidle
  | erase p hrunning hkind _ _ => exact absurd ⟨hrunning, .inr hkind⟩ hidle

theorem StepCells.outside_write {p : Profile} {s t : State} (h : StepCells s t) (hok : s.cfg.ok = true)
    (hc : s.cfg.commandsDistinct = true) (hkind : s.op.opKind = s.cfg.commands.write) (hrow : RowOk p (cursorRow p s) s) :
    SameOutside (cursorRow p s) 1 p.unitSize s.die.arr t.die.arr := by
  cases h with
  | none h => exact h ▸ SameOutside.refl _ _ _ _
  | write p' _ _ hheld h =>
    obtain rfl := Option.some.inj (hheld.symm.trans hrow.held)
    exact h.outside hok hrow
  | erase p' _ hkind' _ _ => exact absurd (hkind.symm.trans hkind') (kinds_ne hc).2.2

theorem StepCells.outside_erase {p : Profile} {s t : State} (h : StepCells s t) (hok : s.cfg.ok = true)
    (hc : s.cfg.commandsDistinct = true) (hkind : s.op.opKind = s.cfg.commands.erase)
    (hrow : RowOk p (s.op.curBlock.toNat * p.pagesPerBlock) s) :
    SameOutside (s.op.curBlock.toNat * p.pagesPerBlock) p.pagesPerBlock p.unitSize s.die.arr t.die.arr := by
  cases h with
  | none h => exact h ▸ SameOutside.refl _ _ _ _
  | write p' _ hkind' _ _ => exact absurd (hkind'.symm.trans hkind) (kinds_ne hc).2.2
  | erase p' _ _ hheld h =>
    obtain rfl := Option.some.inj (hheld.symm.trans hrow.held)
    exact h.outside hok hrow

/-! ## An Erase unit under a failing supply (R286) -/

/-- Power that lasts for the erase: the unit ends as the whole one does, and only the end meets the failing supply. -/
theorem eraseUnit_survives {p : Profile} {s : State} {q q' : Supply} (hon : s.env.power = .on) (hspend : q.spend = some q')
    (hpassed : (memErase p s.op.curBlock.toNat s).1 = .ok ()) (hverify : s.op.optVerify = false) :
    ∃ v, BusOnly s v ∧ v.env.power = .on ∧ eraseUnit p s = finishUnit p v ∧
      eraseUnit p (s.withPower q) = finishUnit p (v.withPower q') := by
  have herase := oneEffect_memErase p s.op.curBlock.toNat
  have hstep := herase.step s
  have hcut := herase.survives s q q' hon hspend
  rw [hpassed] at hcut
  have hfirst : eraseRetry p s.op.curBlock.toNat s = (.ok (), (memErase p s.op.curBlock.toNat s).2) := by
    rw [eraseRetry_of (by rw [hpassed]; nofun), ← hpassed]
  have hfirst' : eraseRetry p s.op.curBlock.toNat (s.withPower q) =
      (.ok (), (memErase p s.op.curBlock.toNat s).2.withPower q') := by
    rw [eraseRetry_of (by rw [hcut]; nofun), hcut]
  exact ⟨_, hstep.bus, hstep.on hon, eraseUnit_of_passed (eraseOne_unverified _ hfirst hverify),
    eraseUnit_of_passed (s := s.withPower q) (eraseOne_unverified _ hfirst' hverify)⟩

/-- An Erase unit without verify has two effects, the erase and the record: with power for one the block is erased and the record
as it was, with power for two the step is whole. -/
theorem eraseStep_cut {p : Profile} {s u v : State} {k d n : Nat} {rest : List Nat} {f : Bool} (hok : s.cfg.ok = true)
    (hc : s.cfg.commandsDistinct = true) (hon : s.env.power = .on) (hrxq : s.rxq = []) (hrunning : s.seq = .running)
    (hkind : s.op.opKind = s.cfg.commands.erase) (hrow : RowOk p (s.op.curBlock.toNat * p.pagesPerBlock) s)
    (hverify : s.op.optVerify = false) (hdraws : s.env.draws = k :: d :: rest) (hready : k < s.cfg.readyTimeoutErase)
    (hpass : d % 2 = 0) (hu : engineStep s = .next u) (hv : engineStep (s.withPower (.failing (n + 1) f)) = .next v) :
    v.die.arr = u.die.arr ∧ (n = 0 → v.cp = s.cp) ∧ (1 ≤ n → v.cp = u.cp) := by
  have hdraw := draw_cons hdraws
  have hdraw' := draw_cons (s := (draw s).2) (d := d) (r := rest) (by rw [hdraw])
  have hpassed : (memErase p s.op.curBlock.toNat s).1 = .ok () := by
    rw [(memErase_spec hok hrow hon).1, hdraw', hdraw, if_pos hready, if_neg (by omega)]
  obtain ⟨w, hbus, hlasts, heq, heq'⟩ := eraseUnit_survives (q := .failing (n + 1) f) hon rfl hpassed hverify
  rw [engineStep_of_running_erase hc hrxq hrunning hkind hrow.held, heq] at hu
  rw [engineStep_of_running_erase (s := s.withPower (.failing (n + 1) f)) hc hrxq hrunning hkind hrow.held, heq'] at hv
  cases hu
  cases hv
  have hrecord := recordAt_finishUnit p hlasts (.failing n f)
  refine ⟨by rw [finishUnit_die, finishUnit_die, withPower_die], fun h0 => ?_, fun h1 => ?_⟩
  · subst h0
    exact hrecord.trans hbus.cp
  · obtain ⟨m, rfl⟩ := Nat.exists_eq_add_of_le' h1
    exact hrecord

/-! ## Power failing inside a step (R400, R416, R72) -/

theorem powerOn_cp (s : State) : (powerOn s).cp = s.cp := by simp [powerOn, sessionStart]

/-- Settles O49: the cut step is compared with the whole one, the record by `stepRecordAt_engineStep`, the cells by
`stepCells_engineStep`, and the Erase unit by `eraseStep_cut`; the power-on keeps both. -/
theorem powerCutKeepsDurableState : Obligations.PowerCutKeepsDurableState := by
  intro s t n inFlight hok hc hon hcut
  obtain ⟨v, hv, rfl⟩ := powerOnDuring_next hcut
  obtain ⟨-, hidle, -, -, harr, hpower⟩ := powerOn_frame v
  have hrecord := stepRecordAt_engineStep hok hon (.failing n inFlight) v hv
  have hcells : StepCells (s.withPower (.failing n inFlight)) v := stepCells_engineStep hv
  rw [hidle, hpower, powerOn_cp, harr]
  refine ⟨rfl, rfl, fun h0 => ⟨?_, fun hquiet => ?_⟩, hrecord.imp_right And.right, hcells.arr_of_idle, fun p =>
    ⟨fun hkind hrow => ?_, fun hkind hrow => ⟨?_, fun k d rest u hrxq hrunning _ hverify hdraws hready hpass hu hn => ?_⟩⟩⟩
  · subst h0
    exact hrecord.resolve_right nofun
  · subst h0 hquiet
    exact hcells.arr_of_dark (.inr rfl)
  · exact hcells.outside_write hok hc hkind ⟨hrow.held, hrow.agrees, hrow.inRange⟩
  · exact hcells.outside_erase hok hc hkind ⟨hrow.held, hrow.agrees, hrow.inRange⟩
  · obtain ⟨m, rfl⟩ := Nat.exists_eq_add_of_le' hn
    obtain ⟨hsame, hone, htwo⟩ :=
      eraseStep_cut hok hc hon hrxq hrunning hkind hrow hverify hdraws hready hpass hu hv
    exact ⟨hsame, fun h => hone (by omega), fun h => htwo (by omega)⟩

end Sys2Proof.Machine
end
